-- ==== Sys2Proof/Word.lean ====
section
/-!
DEFINITION. The word of the backplane and its plainest arithmetic.
-/

namespace Sys2Proof

/-- A 32-bit word of exchange memory or of the register window (R188). -/
abbrev Word := BitVec 32

/-- A byte of exchange memory. -/
abbrev Byte := BitVec 8

/-- An axis number, 0-3. -/
abbrev AxisIx := Fin 4

/-- A signed value narrowed into a 32-bit counter, modulo 2^32 (R93). -/
def wordOfInt (v : Int) : Word := BitVec.ofInt 32 v

/-- The largest value of a signed 32-bit count. -/
def maxInt32 : Int := 2147483647

/-- The smallest value of a signed 32-bit count. -/
def minInt32 : Int := -2147483648

/-- A signed value saturated to the signed 32-bit range (R95). -/
def satWord (v : Int) : Word := wordOfInt (max minInt32 (min maxInt32 v))

/-- The value FFFF Hex of an index field: none (R1). -/
def noIndex : Nat := 0xFFFF

/-- The largest unsigned 32-bit count, at which elapsed times and fire counts saturate (R18, R19). -/
def maxCount : Nat := 0xFFFFFFFF

end Sys2Proof
end

