-- ==== Sys2Proof/Syntax.lean ====
section
/-!
DEFINITION. The commands: one constructor for each row of the opcode table.
-/

namespace Sys2Proof

/-- What the manual leaves open inside one command (R122, R142, R151, R154, R184; logs 7, 16 and 22).
Every field is arbitrary: a statement about a command holds for every value of it but where it names one. -/
structure Race where
  /-- Which reported change is taken next, each time one is taken (R122). -/
  picks : List Nat := []
  /-- In which order the blocks, or the axes, are reached by one module-wide event (R184). -/
  blocks : List Nat := []
  /-- The axes whose abrupt stop at a reference edge is complete within this command (R142; log 16). -/
  settle : List AxisIx := [0, 1, 2, 3]
  /-- The reads of COLLECT that fall between two linkings of this command: how many cells each detaches
  (R154; log 22). -/
  collects : List Nat := []
  deriving DecidableEq, Repr

/-- The two travel limit inputs of an axis. -/
inductive LimitSide where
  | plus
  | minus
  deriving DecidableEq, Repr

/-- A command of the block: one constructor for each row of spec/opcode_table.json.
The operands are what the row's rules read of the outside (log 1). -/
inductive Instr where
  /-- Power is applied (R177). -/
  | powerOn
  /-- The rack reset line (R186). -/
  | rackResetLine
  /-- The POWER_UP sequence ends with every pattern read back correctly (R177). -/
  | selfTestPass
  /-- The POWER_UP sequence ends with a pattern read back wrongly (R177). -/
  | selfTestFail
  /-- A write of `value` to POST (R22). -/
  | postWrite (value : Word)
  /-- A read of COLLECT (R153). -/
  | collect
  /-- A CONTROL write with code 01 Hex and this argument (R181). -/
  | start (arg : Byte)
  /-- A CONTROL write with code 02 Hex and this argument (R184). -/
  | stop (arg : Byte) (race : Race)
  /-- A CONTROL write with code 03 Hex and this argument (R186). `written` is how many words of the
  result part a visit under way had written when the RESET is taken, 0 where none is (R30, log 23). -/
  | reset (arg : Byte) (written : Nat)
  /-- A CONTROL write with code 04 Hex, the argument naming the causes (R158). -/
  | ack (causes : Byte)
  /-- A CONTROL write with code 05 Hex and this argument (R174). -/
  | kick (arg : Byte)
  /-- A CONTROL write whose code names no command (R174). -/
  | unknownCommand (code arg : Byte)
  /-- A write to COLLECT, to STATUS or to a window offset of 10 Hex or above (R188). -/
  | ignoredRegisterWrite (offset : Nat) (value : Word)
  /-- The setup check ends without failure (R182). -/
  | setupCheckPass (race : Race)
  /-- The setup check stops at a failing field (R183). -/
  | setupCheckFail
  /-- The oldest head leaves the post queue and its walk begins (R25). -/
  | walkBegin
  /-- One visit of the walk in progress (R26). -/
  | cellVisit (race : Race)
  /-- The leading edge of an output pulse of an axis (R92). -/
  | outputPulse (axis : AxisIx) (race : Race)
  /-- The last axis has come to rest during STOPPING (R185). -/
  | moduleStopComplete
  /-- The encoder inputs A and B of an axis take new levels (R94). -/
  | encoderEdge (axis : AxisIx) (a b : Bool) (race : Race)
  /-- A limit input of an axis takes a new level (R102). -/
  | limitInputChange (axis : AxisIx) (side : LimitSide) (level : Bool) (race : Race)
  /-- The reference switch input of an axis takes a new level (R137). -/
  | referenceSwitchChange (axis : AxisIx) (level : Bool) (race : Race)
  /-- The index input of an axis takes a new level (R141). -/
  | indexInputChange (axis : AxisIx) (level : Bool) (race : Race)
  /-- The drive ready input of an axis takes a new level (R104). -/
  | driveReadyChange (axis : AxisIx) (level : Bool) (race : Race)
  /-- The drive alarm input of an axis takes a new level (R105). -/
  | driveAlarmChange (axis : AxisIx) (level : Bool) (race : Race)
  /-- An event input takes a new level (R131). -/
  | eventInputChange (input : Fin 4) (level : Bool) (race : Race)
  /-- A millisecond has gone by (R180). -/
  | moduleClockTick (race : Race)
  /-- The images are written into exchange memory (R187). -/
  | imageRefresh
  /-- The elapsed count of the watch of this cell makes its condition true (R116). -/
  | elapsedReached (cell : Nat) (race : Race)
  /-- The deadline timer of the head of an axis runs out (R67). -/
  | deadlineExpiry (axis : AxisIx) (race : Race)
  /-- The remaining time of a running DWELL reaches 0 (R56). -/
  | dwellEnd (axis : AxisIx) (race : Race)
  /-- The pause timer of a reference run reaches 0 (R143). -/
  | pauseExpiry (axis : AxisIx) (race : Race)
  /-- The clear-pulse timer of an axis runs out (R144). -/
  | clearPulseExpiry (axis : AxisIx) (race : Race)
  /-- The pulse timer of a trigger output runs out (R133). -/
  | triggerPulseExpiry (output : Fin 4)
  /-- The supervision timer expires (R170). -/
  | supervisionExpiry (race : Race)
  deriving DecidableEq, Repr

end Sys2Proof
end

