-- ==== Sys2Proof/Decode.lean ====
section
/-!
DEFINITION. The commands that a word spells by the opcode table's bits.
-/

namespace Sys2Proof

/-- No row of spec/opcode_table.json gives bits (each row's "fields" is empty and none has "fixed"), so no
word spells a command by the table: the answer is none for every word (log 27). -/
def decodeTableWord (_nbits _w : Nat) : Option Instr := none

end Sys2Proof
end

