-- ==== Sys2Proof/Config.lean ====
section
/-!
DEFINITION. What the manual fixes for the module as constants, and the free values it leaves open.
-/

namespace Sys2Proof.Config

/-- The bytes of exchange memory, 0000 to 7FFF Hex (32 KiB). -/
def memSize : Nat := 0x8000

/-- The cells of the order pool (R1). -/
def cellCount : Nat := 480

/-- The entries an order list holds at most (R35, R44). -/
def listCapacity : Nat := 16

/-- The entries the watch table holds at most (R35, R112). -/
def watchCapacity : Nat := 16

/-- The heads the post queue holds at most (R22). -/
def postCapacity : Nat := 8

/-- Module type code (11.3, R179). -/
def typeCode : Word := 0x0A28#32

/-- Hardware revision 1 in bits 0-15, firmware revision 3 in bits 16-31 (11.3, R179). -/
def revisions : Word := 0x00030001#32

/-- FREE VALUE (log 10). The manual does not say how a commanded speed that is no whole number of
pulses/s is shown; of the two neighbouring whole numbers this picks the upper one where it is true.
The argument is the square of the speed, in 10^-18 (pulses/s)^2. -/
opaque speedRoundsUp : Nat → Bool

/-- How many reported changes one command takes before it leaves the rest to the next (log 7). -/
def agendaBound : Nat := 4096

end Sys2Proof.Config
end

