-- ==== Sys2Proof/Machine/State.lean ====
section
/-!
DEFINITION. The state of the PX-40 as plain data, the reasons a step can stop, and the state after reset.
Chapter and rule of each piece stand in its docstring; the list with reset values is INVENTORY.md.
-/

namespace Sys2Proof.Machine

/-! ### Order cells (chapter 1) -/

/-- The motion kinds of R11. -/
inductive MotionKind where
  | moveAbs | moveRel | jog | dwell | reference
  deriving DecidableEq, Repr

/-- The control kinds of R11. -/
inductive ControlKind where
  | stopAxis | hold | resume | advance | override | setPosition | openGate | closeGate | cancelWatch
  | clearFault
  deriving DecidableEq, Repr

/-- The kinds of R11 by their class. -/
inductive Kind where
  | motion (k : MotionKind)
  | armWatch
  | control (k : ControlKind)
  deriving DecidableEq, Repr

/-- The part of the module an order or a fault concerns (R11, R159). -/
inductive Scope where
  | axis (n : AxisIx)
  | module
  deriving DecidableEq, Repr

/-- The option bits of R16. -/
structure Options where
  notify   : Bool
  fly      : Bool
  gated    : Bool
  observe  : Bool
  deadline : Bool
  smooth   : Bool
  deriving DecidableEq, Repr

/-- P1 to P7 of a cell (1.2). -/
structure Params where
  p1 : Word
  p2 : Word
  p3 : Word
  p4 : Word
  p5 : Word
  p6 : Word
  p7 : Word
  deriving DecidableEq, Repr

/-- The end codes of R17. -/
inductive EndCode where
  | completed | advanced | stopped | limited | flushed | faulted | cancelled | firedOut | done
  deriving DecidableEq, Repr

/-- The refusal codes of R20. -/
inductive RefusalCode where
  | badKind | badScope | axisDisabled | axisFaulted | listFull | tableFull | badParam
  | moduleNotRunning | moduleSilent | priorRefused | notApplicable | stillPresent | busy
  deriving DecidableEq, Repr

/-- The fly outcome of R21. -/
inductive FlyOutcome where
  | none
  | taken
  | declined (reason : Nat)
  deriving DecidableEq, Repr

/-- A direction of travel (R91). -/
inductive Dir where
  | plus
  | minus
  deriving DecidableEq, Repr

/-- The module's own record of where an order of a list stands (R3, R8). -/
inductive EntryState where
  | admitted
  | waiting
  | active
  deriving DecidableEq, Repr

/-- An entry of an axis order list (R44): the cell index and the admitted copy (R7), then the order's
progress, which only the head uses. -/
structure Entry where
  cell      : Nat
  kind      : MotionKind
  opts      : Options
  gate      : Fin 16
  deadline  : Nat
  params    : Params
  /-- The bound mark (R44, R59). -/
  bound     : Bool := false
  status    : EntryState := .admitted
  /-- The fly outcome (R21). -/
  fly       : FlyOutcome := .none
  /-- A decision has been taken, or a decline recorded, since the start or the last RESUME (R57, R65). -/
  decided   : Bool := false
  /-- ms left of the deadline, none while it is not armed (R66). -/
  deadlineTimer : Option Nat := none
  /-- ms left of a DWELL (R56). -/
  dwellLeft : Nat := 0
  /-- ms since the start, saturating (R18). -/
  elapsed   : Nat := 0
  /-- The target of a move, or the edge of a JOG (R50, R101). -/
  target    : Int := 0
  /-- The travel direction of a move or JOG (R50). -/
  dir       : Dir := .plus
  /-- The speed a SET_SPEED put in the place of P2 (R86). -/
  newSpeed  : Option Nat := none
  deriving DecidableEq, Repr

/-! ### Profile Generator (chapter 4) -/

/-- The two ramp forms (4.2). -/
inductive Form where
  | linear
  | smooth
  deriving DecidableEq, Repr

/-- A stretch of constant jerk of a SMOOTH ramp: its length in 10^-15 s, the speed in 10^-9 pulses/s and the
acceleration in 10^-9 pulses/s^2 at its beginning, and its jerk in pulses/s^3 (R74, R88; log 9). -/
structure Piece where
  dur : Nat
  v   : Int
  a   : Int
  j   : Int
  deriving DecidableEq, Repr

/-- How the speed changes along a ramp. -/
inductive RampShape where
  /-- A constant rate in pulses/s^2 (R73). -/
  | linear (rate : Nat)
  /-- The constant rate that reaches the end speed exactly at the end of the length (R79, R85, R87). -/
  | fit
  /-- A jerk-limited profile (R74, R88). -/
  | smooth (pieces : List Piece)
  deriving DecidableEq, Repr

/-- A ramp: the squares of its start and end speed in 10^-18 (pulses/s)^2, and its length in whole pulses (R75). -/
structure Ramp where
  fromSq : Nat
  toSq   : Nat
  len    : Nat
  shape  : RampShape
  deriving DecidableEq, Repr

/-- The plan of 4.1. Distances are counted in pulses from the position at which the plan was made. -/
structure Plan where
  form      : Form
  acc       : Nat
  dec       : Nat
  jerk      : Nat
  startSq   : Nat
  targetSpeed : Nat
  peakSq    : Nat
  endSpeed  : Nat
  /-- Pulses from the plan's position to its target, or to the standstill of a stop ramp. -/
  length    : Nat
  /-- From the start speed to the peak. -/
  first     : Ramp
  /-- The decel point (R78). -/
  decelAt   : Nat
  /-- From the peak to the end speed. -/
  final     : Ramp
  /-- The commit point of a move with FLY (R78). -/
  commitAt  : Option Nat
  /-- Pulses after which a JOG reports its edge: at the decel point, or at once where the plan cannot stop on
  the edge (R79). -/
  reportAt  : Nat
  /-- Pulses made since the plan was made. -/
  moved     : Nat
  deriving DecidableEq, Repr

/-- The ramp phases of 4.1. -/
inductive RampPhase where
  | standing | accelerating | cruising | decelerating
  deriving DecidableEq, Repr

/-- The profile state of an axis (4.1, R71). -/
structure Profile where
  /-- The square of the commanded speed, in 10^-18 (pulses/s)^2 (log 9). -/
  speedSq  : Nat := 0
  /-- The acceleration, in 10^-9 pulses/s^2 (log 9). -/
  accel    : Int := 0
  phase    : RampPhase := .standing
  dir      : Dir := .plus
  plan     : Option Plan := none
  override : Nat := 100
  pendingReplan : Bool := false
  /-- Leading edges put out on Pulse A since the last reset (R91; log 26). -/
  edgesA   : Nat := 0
  /-- Leading edges put out on Pulse B as pulses since the last reset (R91; log 26). -/
  edgesB   : Nat := 0
  deriving DecidableEq, Repr

/-! ### Position Block (chapter 5) -/

/-- The levels of the six axis inputs, true where energised (R96). -/
structure Inputs where
  limitPlus  : Bool := false
  limitMinus : Bool := false
  reference  : Bool := false
  index      : Bool := false
  ready      : Bool := false
  alarm      : Bool := false
  deriving DecidableEq, Repr

/-- The conditions of R97 that are watched for beginning to hold. -/
inductive Cond where
  | limit | ready | alarm | follow
  deriving DecidableEq, Repr

/-- Which of the conditions hold while being checked, so that they are not reported again (R97). -/
structure Conds where
  limit  : Bool := false
  ready  : Bool := false
  alarm  : Bool := false
  follow : Bool := false
  deriving DecidableEq, Repr

/-! ### Reference Controller (chapter 7) -/

/-- The phases of R134. -/
inductive RefPhase where
  | none | approach | seekBack | clear | creep | index | clearPulse | offset | pause
  deriving DecidableEq, Repr

/-- The Reference Controller of an axis (R134). -/
structure RefCtl where
  phase      : RefPhase := .none
  next       : RefPhase := .none
  switchSeen : Bool := false
  indexStart : Word := 0
  latchedCmd : Word := 0
  latchedFb  : Word := 0
  pauseTimer : Option Nat := Option.none
  clearTimer : Option Nat := Option.none
  clearOut   : Bool := false
  /-- The ramp-stop of APPROACH or SEEK_BACK is under way (R137, R138). -/
  rampStop   : Bool := false
  /-- The counters are latched and the position assignment is still to be made (R142, R148). -/
  assignDue  : Bool := false
  deriving DecidableEq, Repr

/-! ### Setup in force (chapter 10) -/

/-- Pulse output modes (R91). -/
inductive PulseMode where
  | pulseDir | cwCcw
  deriving DecidableEq, Repr

/-- Encoder modes (R94). -/
inductive EncMode where
  | quad4 | upDown
  deriving DecidableEq, Repr

/-- Fault reactions (9.3). -/
inductive Reaction where
  | ramp | abrupt
  deriving DecidableEq, Repr

/-- Silence actions (R171). -/
inductive SilenceAction where
  | carryOn | rampStop | abruptStop
  deriving DecidableEq, Repr

/-- The setup in force of an axis, fields 1 to 21 (R181). The defaults are the reset setup (R186); the
fields that R186 says are not used are 0 (log 19). -/
structure AxisSetup where
  enable        : Bool := false
  pulseMode     : PulseMode := .pulseDir
  encMode       : EncMode := .quad4
  ratioNum      : Nat := 1
  ratioDen      : Nat := 1
  floor         : Nat := 0
  maxSpeed      : Nat := 0
  accel         : Nat := 0
  decel         : Nat := 0
  jerk          : Nat := 0
  stopDecel     : Nat := 0
  windowEnable  : Bool := false
  windowLow     : Int := 0
  windowHigh    : Int := 0
  followLimit   : Nat := 0
  /-- Bit order of 11.4: limit plus, limit minus, reference, index, ready, alarm; 1 active-low. -/
  polarity      : BitVec 6 := 0
  limitReaction : Reaction := .ramp
  followReaction : Reaction := .ramp
  silence       : SilenceAction := .carryOn
  requireRef    : Bool := false
  indexSpan     : Nat := 0
  deriving DecidableEq, Repr

/-! ### An axis -/

/-- The axis states of 3.2. -/
inductive AxisState where
  | disabled | idle | waiting | running | holding | held | stopping | faulted
  deriving DecidableEq, Repr

/-- The stop causes of R47. -/
inductive StopCause where
  | none | request | limitEdge | fault | module | silence
  deriving DecidableEq, Repr

/-- Everything the module keeps for one axis. -/
structure Axis where
  state        : AxisState := .disabled
  stopCause    : StopCause := .none
  pendingFault : Bool := false
  /-- The end that the ramp under way gives the order (R61, R64, R70, R171). -/
  rampEnd      : EndCode := .stopped
  list         : List Entry := []
  prof         : Profile := {}
  commanded    : Word := 0
  feedback     : Word := 0
  followErr    : Word := 0
  referenced   : Bool := false
  inputs       : Inputs := {}
  encA         : Bool := false
  encB         : Bool := false
  seen         : Conds := {}
  ref          : RefCtl := {}
  setup        : AxisSetup := {}
  deriving DecidableEq, Repr

/-- Four like things, numbered 0 to 3: axes, event inputs, trigger outputs, refused-axis marks. -/
structure Quad (α : Type) where
  x0 : α
  x1 : α
  x2 : α
  x3 : α
  deriving DecidableEq, Repr

/-! ### Watch Unit (chapter 6) -/

/-- The quantities of R114, each with its source. -/
inductive Quantity where
  | commandedPos (axis : AxisIx)
  | feedbackPos (axis : AxisIx)
  | speed (axis : AxisIx)
  | followingError (axis : AxisIx)
  | eventInput (input : Fin 4)
  | elapsed
  deriving DecidableEq, Repr

/-- The conditions of R115. -/
inductive Condition where
  | atOrAbove | above | below | equal
  deriving DecidableEq, Repr

/-- The actions of R121, each with its target and its value. -/
inductive Action where
  | openGate (gate : Fin 16)
  | advance (axis : AxisIx)
  | hold (axis : AxisIx)
  | stop (axis : AxisIx)
  | setSpeed (axis : AxisIx) (speed : Nat)
  | pulseOutput (output : Fin 4) (width : Nat)
  | latchOnly
  deriving DecidableEq, Repr

/-- An entry of the watch table (R112), with what the result part keeps of the last firing (R19) and the
NOTIFY of the admitted copy (R151). -/
structure Watch where
  cell      : Nat
  quantity  : Quantity
  condition : Condition
  threshold : Int
  action    : Action
  notify    : Bool
  /-- Repeat remaining, 0 for unlimited. -/
  repeatLeft : Nat
  truth     : Bool
  fireCount : Nat := 0
  sinceArm  : Nat := 0
  elapsed   : Nat := 0
  lastCmd   : Word := 0
  lastFb    : Word := 0
  lastNA    : Bool := false
  deriving DecidableEq, Repr

/-- A trigger output and its pulse timer (R133). -/
structure Trigger where
  active : Bool := false
  timer  : Option Nat := none
  deriving DecidableEq, Repr

/-! ### Post Unit, Return Unit, Fault Unit, Module Controller -/

/-- The end reasons of R27; `none` is "no walk yet". -/
inductive EndReason where
  | none | endOfChain | badIndex | notOffered
  deriving DecidableEq, Repr

/-- The walk in progress (R25). -/
structure Walk where
  head     : Nat
  at_      : Nat
  admitted : Nat := 0
  refused  : Nat := 0
  marks    : Quad Bool := ⟨false, false, false, false⟩
  deriving DecidableEq, Repr

/-- The last post outcome record (R27). -/
structure PostOutcome where
  head       : Nat := 0
  admitted   : Nat := 0
  refused    : Nat := 0
  reason     : EndReason := .none
  stopping   : Nat := 0
  walkNumber : BitVec 16 := 0
  deriving DecidableEq, Repr

/-- The three interrupt causes, or one enable for each (R155, R156). -/
structure Causes where
  ret   : Bool := false
  fault : Bool := false
  state : Bool := false
  deriving DecidableEq, Repr

/-- An entry of the annunciation queue (9.2). -/
structure FaultEntry where
  scope    : Scope
  code     : Nat
  detail   : Nat
  cell     : Nat
  time     : Word
  count    : Nat
  lastCode : Nat
  deriving DecidableEq, Repr

/-- The module states of R173. -/
inductive ModState where
  | powerUp | stopped | starting | running | silent | stopping | halted
  deriving DecidableEq, Repr

/-- What a POWER_UP sequence tests and zeroes: all of exchange memory, or after a RESET the image regions (R177). -/
inductive Extent where
  | whole | images
  deriving DecidableEq, Repr

/-- The outcomes of R175. -/
inductive CtlOutcome where
  | none | taken | refusedState | unknown
  deriving DecidableEq, Repr

/-- The CONTROL read-back (R175). -/
structure Readback where
  code    : Byte := 0
  arg     : Byte := 0
  outcome : CtlOutcome := .none
  count   : Byte := 0
  deriving DecidableEq, Repr

/-- The value a changed quantity has at its change (R114). -/
inductive Sample where
  | value (v : Int)
  | speedSq (sq : Nat)
  | level (b : Bool)
  deriving DecidableEq, Repr

/-- What one event leaves to be taken after it, in an order of its own (R122; log 7). -/
inductive Job where
  /-- Evaluate an armed watch on a new value of its quantity (R117). -/
  | evalWatch (cell : Nat) (quantity : Quantity) (sample : Sample)
  /-- The sequencer acts on the position a pulse has reached (R53, R57, R79, R84, R141). -/
  | progress (axis : AxisIx)
  /-- The Position Block judges a condition (R97). -/
  | check (axis : AxisIx) (cond : Cond)
  /-- The abrupt stop at a reference edge is complete (R142). -/
  | assign (axis : AxisIx)
  deriving DecidableEq, Repr

/-- A backplane write to exchange memory (R188). `late` says how far the module has come. During STARTING and
during a visit it has already read the word: the setup check a setup word (R181; log 24), the visit a word of the cell
that the walk is at (R6; log 24). During POWER_UP the sequence has already zeroed memory and written the identity
(R177; log 17). What an earlier late write says stays so. -/
structure BusWrite where
  offset : Nat
  value  : Word
  late   : Bool := false
  deriving DecidableEq, Repr

/-! ### The state -/

/-- The whole state of the module. -/
structure State where
  /-- Exchange memory: the bytes that are not 0, by rising address (R188). -/
  mem         : List Host.Cell
  modState    : ModState
  /-- What the POWER_UP sequence in progress has yet to zero, before it writes the identity; none when it has done
  both (R177; log 17). -/
  toClear     : Option Extent
  clock       : Word
  readback    : Readback
  /-- Setup words as the check in progress has read them (R181; log 24). -/
  setupRead   : List (Nat × Word)
  /-- Words of the cell that the walk is at, as the visit in progress has read them (R6; log 24). -/
  visitRead   : List (Nat × Word)
  supInterval : Nat
  supTimer    : Option Nat
  faults      : List FaultEntry
  postQueue   : List (BitVec 16)
  walk        : Option Walk
  outcome     : PostOutcome
  /-- The cells whose held mark is set, rising (R4). -/
  held        : List Nat
  /-- The return chain in link order (R150; log 21). -/
  chain       : List Nat
  causes      : Causes
  mask        : Causes
  /-- The word the last COLLECT read returned (R153; log 25). -/
  collectWord : Word
  watches     : List Watch
  /-- true where the gate is open (R126). -/
  gates       : Vector Bool 16
  /-- The waiting records of all gates together, in the order the claims were taken (R129). -/
  waiting     : List (Fin 16 × AxisIx)
  triggers    : Quad Trigger
  /-- Levels of the event inputs (R131). -/
  events      : Quad Bool
  axes        : Quad Axis
  /-- Reported changes still to be taken (log 7). -/
  agenda      : List Job
  /-- Commands waiting, first in, first out. -/
  pending     : List Instr
  /-- Backplane writes waiting, served while no command waits (log 2). -/
  busWrites   : List BusWrite
  deriving DecidableEq, Repr

/-- Why the model stops with a fault. -/
inductive Fault where
  /-- Raised by the step for a backplane write to an address that exchange memory does not have, or that
  is not word-aligned (00, R188). Safe: the model stops where the manual describes no access. -/
  | noSuchAddress (offset : Nat)
  deriving DecidableEq, Repr

/-- Why the model refuses a command. -/
inductive Refusal where
  /-- Raised by exec for a command that has no meaning yet. Safe: nothing can be proved about its effect. -/
  | notModelled (mnemonic : String)
  deriving DecidableEq, Repr

/-- The machine right after reset: power has been applied and the POWER_UP sequence has begun (R173, R177,
R186 and the reset rules of each block). Levels of pins: log 20. -/
def State.reset : State where
  mem         := []
  modState    := .powerUp
  toClear     := some .whole
  clock       := 0
  readback    := {}
  setupRead   := []
  visitRead   := []
  supInterval := 0
  supTimer    := none
  faults      := []
  postQueue   := []
  walk        := none
  outcome     := {}
  held        := []
  chain       := []
  causes      := {}
  mask        := {}
  collectWord := 0
  watches     := []
  gates       := Vector.replicate 16 false
  waiting     := []
  triggers    := ⟨{}, {}, {}, {}⟩
  events      := ⟨false, false, false, false⟩
  axes        := ⟨{}, {}, {}, {}⟩
  agenda      := []
  pending     := []
  busWrites   := []

end Sys2Proof.Machine
end

