-- ==== Sys2Proof/Machine/Flags.lean ====
section
/-!
DEFINITION. Codes and flags as the tables of chapter 11 number them, and the words built from them.
-/

namespace Sys2Proof.Machine

/-- A word of a low and a high half. -/
def halves (low high : Nat) : Word := BitVec.ofNat 16 high ++ BitVec.ofNat 16 low

/-- A word of four bytes, lowest first. -/
def bytes4 (b0 b1 b2 b3 : Nat) : Word :=
  BitVec.ofNat 8 b3 ++ BitVec.ofNat 8 b2 ++ BitVec.ofNat 8 b1 ++ BitVec.ofNat 8 b0

/-- The bits of a list, bit 0 first, as a number. -/
def bitsNat : List Bool → Nat
  | [] => 0
  | b :: bs => b.toNat + 2 * bitsNat bs

/-! ### Codes -/

/-- Cell states of the state byte (1.3). -/
def offeredByte : Byte := 1
/-- ADMITTED. -/
def admittedByte : Byte := 2
/-- ACTIVE. -/
def activeByte : Byte := 3
/-- WAITING. -/
def waitingByte : Byte := 4
/-- ARMED. -/
def armedByte : Byte := 5
/-- ENDED. -/
def endedByte : Byte := 6
/-- REFUSED. -/
def refusedByte : Byte := 7

/-- End codes of R17. -/
def EndCode.code : EndCode → Nat
  | .completed => 1 | .advanced => 2 | .stopped => 3 | .limited => 4 | .flushed => 5
  | .faulted => 6 | .cancelled => 7 | .firedOut => 8 | .done => 9

/-- Refusal codes of R20. -/
def RefusalCode.code : RefusalCode → Nat
  | .badKind => 0x40 | .badScope => 0x41 | .axisDisabled => 0x42 | .axisFaulted => 0x43
  | .listFull => 0x44 | .tableFull => 0x45 | .badParam => 0x46 | .moduleNotRunning => 0x47
  | .moduleSilent => 0x48 | .priorRefused => 0x49 | .notApplicable => 0x4A | .stillPresent => 0x4B
  | .busy => 0x4C

/-- Module states of R173. -/
def ModState.code : ModState → Nat
  | .powerUp => 0 | .stopped => 1 | .starting => 2 | .running => 3 | .silent => 4 | .stopping => 5
  | .halted => 6

/-- Axis states of 3.2. -/
def AxisState.code : AxisState → Nat
  | .disabled => 0 | .idle => 1 | .waiting => 2 | .running => 3 | .holding => 4 | .held => 5
  | .stopping => 6 | .faulted => 7

/-- Stop causes of R47. -/
def StopCause.code : StopCause → Nat
  | .none => 0 | .request => 1 | .limitEdge => 2 | .fault => 3 | .module => 4 | .silence => 5

/-- Reference phases of R134. -/
def RefPhase.code : RefPhase → Nat
  | .none => 0 | .approach => 1 | .seekBack => 2 | .clear => 3 | .creep => 4 | .index => 5
  | .clearPulse => 6 | .offset => 7 | .pause => 8

/-- End reasons of R27. -/
def EndReason.code : EndReason → Nat
  | .none => 0 | .endOfChain => 1 | .badIndex => 2 | .notOffered => 3

/-- Outcomes of R175. -/
def CtlOutcome.code : CtlOutcome → Nat
  | .none => 0 | .taken => 1 | .refusedState => 2 | .unknown => 3

/-- A scope as one byte (11.5). -/
def Scope.code : Scope → Nat
  | .axis n => n.val
  | .module => 0xFF

/-! ### The result part of a cell (1.7, 1.8, 11.6) -/

/-- The fields of a result part but for the return link. -/
structure Result where
  code    : Nat
  reason  : Nat := 0
  fly     : FlyOutcome := .none
  notApplied : Bool := false
  fires   : Nat := 0
  cmd     : Word := 0
  fb      : Word := 0
  elapsed : Nat := 0
  deriving DecidableEq, Repr

/-- FLY_TAKEN, FLY_DECLINED and the decline reason as bits 0, 1 and 2-4 (R21, 11.6). -/
def FlyOutcome.bits : FlyOutcome → Nat
  | .none => 0
  | .taken => 1
  | .declined r => 2 + 4 * (r % 8)

/-- Word 2C Hex of a cell: end code, reason value, fly flags, ACTION_NOT_APPLIED (11.6). -/
def Result.codeWord (r : Result) : Word :=
  bytes4 r.code r.reason (r.fly.bits + 32 * r.notApplied.toNat) 0

/-! ### Interrupt causes (R155, R157, 11.3) -/

/-- The causes as bits 0 RETURN, 1 FAULT, 2 STATE. -/
def Causes.bits (c : Causes) : Nat := bitsNat [c.ret, c.fault, c.state]

/-- The causes that bits 0 to 2 of a number name; other bits are ignored (R156, R158). -/
def Causes.ofBits (n : Nat) : Causes where
  ret   := n.testBit 0
  fault := n.testBit 1
  state := n.testBit 2

/-- The causes that are left when the named ones are cleared (R158). -/
def Causes.without (c named : Causes) : Causes where
  ret   := c.ret && !named.ret
  fault := c.fault && !named.fault
  state := c.state && !named.state

/-- At least one cause is both set and enabled (R157). -/
def Causes.meets (c mask : Causes) : Bool :=
  (c.ret && mask.ret) || (c.fault && mask.fault) || (c.state && mask.state)

/-! ### Register window words (11.2) -/

/-- The interrupt request line (R157). -/
def State.interruptLine (s : State) : Bool := s.causes.meets s.mask

/-- What a read of POST returns (R22). -/
def State.postReadWord (s : State) : Word := halves s.postQueue.length 0

/-- What a read of CONTROL returns (R175, 11.2). -/
def State.controlReadWord (s : State) : Word :=
  bytes4 s.readback.arg.toNat s.readback.code.toNat s.readback.outcome.code s.readback.count.toNat

/-- The code of the entry at the head of the annunciation queue, 0 when it is empty (R162, R176). -/
def State.headFaultCode (s : State) : Nat := (s.faults.head?.map (·.code)).getD 0

/-- What a read of STATUS returns (R176, 11.2). -/
def State.statusWord (s : State) : Word :=
  halves (s.modState.code + 256 * s.causes.bits + 2048 * s.interruptLine.toNat) s.headFaultCode

/-- The word a COLLECT read returns: the head and the count of the chain (R153). -/
def State.collectReadWord (s : State) : Word := halves (s.chain.headD noIndex) s.chain.length

/-- What a read of the register window returns at a word offset: the register there, 0 where there is none. A
read at an offset of 10 Hex or above is no access to a register and changes nothing (R188; log 25). -/
def State.windowWord (s : State) (offset : Nat) : Word :=
  if offset = 0x00 then s.postReadWord
  else if offset = 0x04 then s.collectReadWord
  else if offset = 0x08 then s.controlReadWord
  else if offset = 0x0C then s.statusWord
  else 0

/-! ### Axis inputs and outputs (R91, R96, R106) -/

/-- An input's active state: energised and active-high, or de-energised and active-low (R96). -/
def activeState (level activeLow : Bool) : Bool := level != activeLow

/-- Limit plus is active. -/
def Axis.limitPlusActive (a : Axis) : Bool := activeState a.inputs.limitPlus (a.setup.polarity.getLsbD 0)
/-- Limit minus is active. -/
def Axis.limitMinusActive (a : Axis) : Bool := activeState a.inputs.limitMinus (a.setup.polarity.getLsbD 1)
/-- The reference switch is active. -/
def Axis.referenceActive (a : Axis) : Bool := activeState a.inputs.reference (a.setup.polarity.getLsbD 2)
/-- The index mark is active. -/
def Axis.indexActive (a : Axis) : Bool := activeState a.inputs.index (a.setup.polarity.getLsbD 3)
/-- Drive ready is active. -/
def Axis.readyActive (a : Axis) : Bool := activeState a.inputs.ready (a.setup.polarity.getLsbD 4)
/-- Drive alarm is active. -/
def Axis.alarmActive (a : Axis) : Bool := activeState a.inputs.alarm (a.setup.polarity.getLsbD 5)

/-- The limit input in a direction is active (R102). -/
def Axis.limitActive (a : Axis) : Dir → Bool
  | .plus => a.limitPlusActive
  | .minus => a.limitMinusActive

/-- The drive enable output (R47, R106). -/
def Axis.driveEnable (a : Axis) : Bool :=
  match a.state with
  | .idle | .waiting | .running | .holding | .held | .stopping => true
  | .disabled | .faulted => false

/-- The level of Pulse B as a direction line in PULSE_DIR mode: inactive for plus, active for minus (R91). -/
def Axis.directionLine (a : Axis) : Bool :=
  match a.setup.pulseMode, a.prof.dir with
  | .pulseDir, .minus => true
  | .pulseDir, .plus => false
  | .cwCcw, _ => false

/-- The largest whole number whose square is at most `n`, below 2^(bits); found bit by bit. -/
def isqrtGo (n : Nat) : Nat → Nat → Nat
  | 0, r => r
  | k + 1, r => isqrtGo n k (if (r + 2 ^ k) ^ 2 ≤ n then r + 2 ^ k else r)

/-- The whole part of a square root, for results below 2^102. -/
def isqrt (n : Nat) : Nat := isqrtGo n 102 0

/-- 10^9: speeds are reckoned in 10^-9 pulses/s (log 9). -/
def nano : Nat := 1000000000

/-- The square of a whole speed in pulses/s, in the unit every squared speed has: 10^-18 (pulses/s)^2 (log 9). -/
def sqOf (v : Nat) : Nat := (v * nano) ^ 2

/-- The commanded speed as the image shows it, in whole pulses/s. Of a speed that is no whole number the
free value `Config.speedRoundsUp` says which neighbour is shown (R92; log 10). -/
def shownSpeed (sq : Nat) : Nat :=
  let below := isqrt sq / nano
  if sqOf below = sq then below
  else if Config.speedRoundsUp sq then below + 1 else below

end Sys2Proof.Machine
end

