-- ==== Sys2Proof/Machine/Operands.lean ====
section
/-!
DEFINITION. The fields of order cells and of setup blocks as chapter 11 lays them out, their ranges
(R11 to R16), and the setup check (R181).
-/

namespace Sys2Proof.Machine

/-! ### Order cells (11.6) -/

/-- The order fields of a cell as a walk reads them (R6, R26). -/
structure CellWords where
  header   : Word
  links    : Word
  params   : Params
  timing   : Word
  deriving DecidableEq, Repr

/-- The state byte, bits 0-7 of word 00. -/
def CellWords.stateByte (c : CellWords) : Byte := c.header.extractLsb' 0 8
/-- The kind field, bits 8-15 of word 00. -/
def CellWords.kindCode (c : CellWords) : Nat := (c.header.extractLsb' 8 8).toNat
/-- The scope field, bits 16-23 of word 00. -/
def CellWords.scopeCode (c : CellWords) : Nat := (c.header.extractLsb' 16 8).toNat
/-- The post link, bits 0-15 of word 04. -/
def CellWords.postLink (c : CellWords) : Nat := (c.links.extractLsb' 0 16).toNat
/-- The deadline, bits 0-15 of word 28 Hex. -/
def CellWords.deadline (c : CellWords) : Nat := (c.timing.extractLsb' 0 16).toNat
/-- The gate number, bits 16-23 of word 28 Hex. -/
def CellWords.gateNumber (c : CellWords) : Nat := (c.timing.extractLsb' 16 8).toNat

/-- The options, bits 24-29 of word 00; the other bits are not read (R16). -/
def CellWords.options (c : CellWords) : Options where
  notify   := c.header.getLsbD 24
  fly      := c.header.getLsbD 25
  gated    := c.header.getLsbD 26
  observe  := c.header.getLsbD 27
  deadline := c.header.getLsbD 28
  smooth   := c.header.getLsbD 29

/-- The kinds of R11. -/
def kindOfCode : Nat → Option Kind
  | 0x01 => some (.motion .moveAbs) | 0x02 => some (.motion .moveRel) | 0x03 => some (.motion .jog)
  | 0x04 => some (.motion .dwell) | 0x05 => some (.motion .reference)
  | 0x10 => some .armWatch
  | 0x20 => some (.control .stopAxis) | 0x21 => some (.control .hold) | 0x22 => some (.control .resume)
  | 0x23 => some (.control .advance) | 0x24 => some (.control .override)
  | 0x25 => some (.control .setPosition) | 0x26 => some (.control .openGate)
  | 0x27 => some (.control .closeGate) | 0x28 => some (.control .cancelWatch)
  | 0x29 => some (.control .clearFault)
  | _ => none

/-- The scopes there are: 0-3 and FF Hex (R11). -/
def scopeOfCode : Nat → Option Scope
  | 0 => some (.axis 0) | 1 => some (.axis 1) | 2 => some (.axis 2) | 3 => some (.axis 3)
  | 0xFF => some .module
  | _ => none

/-- Whether a kind permits a scope (R11). -/
def Kind.permits : Kind → Scope → Bool
  | .motion _, .axis _ => true
  | .motion _, .module => false
  | .armWatch, .module => true
  | .armWatch, .axis _ => false
  | .control .clearFault, _ => true
  | .control .openGate, sc | .control .closeGate, sc | .control .cancelWatch, sc =>
      match sc with | .module => true | .axis _ => false
  | .control .stopAxis, sc | .control .hold, sc | .control .resume, sc | .control .advance, sc
  | .control .override, sc | .control .setPosition, sc =>
      match sc with | .axis _ => true | .module => false

/-! ### Ranges (R12 to R16) -/

/-- `lo ≤ w ≤ hi`, the word taken unsigned. -/
def inRange (w : Word) (lo hi : Nat) : Bool := lo ≤ w.toNat && w.toNat ≤ hi

/-- 0 for the default, or 10 to 20,000,000 (R12). -/
def rateOk (w : Word) : Bool := w == 0 || inRange w 10 20000000

/-- 0 for the default, or 100 to 2,000,000,000 (R12). -/
def jerkOk (w : Word) : Bool := w == 0 || inRange w 100 2000000000

/-- P2 to P5 of MOVE_ABS, MOVE_REL and JOG (R12). -/
def speedChecks (floor maxSpeed : Nat) (p : Params) : List (Nat × Bool) :=
  [(2, inRange p.p2 floor maxSpeed), (3, rateOk p.p3), (4, rateOk p.p4), (5, jerkOk p.p5)]

/-- The parts of the packed parameters (11.6). -/
def Params.pause (p : Params) : Nat := (p.p5.extractLsb' 0 16).toNat
/-- Index use of a REFERENCE, bits 16-31 of P5. -/
def Params.indexUse (p : Params) : Nat := (p.p5.extractLsb' 16 16).toNat
/-- The offset of a REFERENCE, the signed 24 bits 0-23 of P7. -/
def Params.offset (p : Params) : Int := (p.p7.extractLsb' 0 24).toInt
/-- The clear-pulse width of a REFERENCE, bits 24-31 of P7. -/
def Params.clearWidth (p : Params) : Nat := (p.p7.extractLsb' 24 8).toNat
/-- The action target of an ARM_WATCH, bits 0-15 of P6. -/
def Params.actionTarget (p : Params) : Nat := (p.p6.extractLsb' 0 16).toNat
/-- The repeat count of an ARM_WATCH, bits 16-31 of P6. -/
def Params.repeatCount (p : Params) : Nat := (p.p6.extractLsb' 16 16).toNat

/-- An axis number of a parameter, where it is 0-3. -/
def axisOfNat (n : Nat) : AxisIx := ⟨n % 4, Nat.mod_lt _ (by decide)⟩

/-- A gate number, where it is 0-15. -/
def gateOfNat (n : Nat) : Fin 16 := ⟨n % 16, Nat.mod_lt _ (by decide)⟩

/-- P1 to P7 of an ARM_WATCH in ascending order; what the quantity or the action does not use is not
judged (R14, 11.6). -/
def watchChecks (p : Params) : List (Nat × Bool) :=
  let q := p.p1.toNat
  let act := p.p5.toNat
  [ (1, inRange p.p1 1 6),
    (2, q == 6 || inRange p.p2 0 3),
    (3, q == 5 || (inRange p.p3 1 4 && (p.p3.toNat != 4 || q == 1 || q == 2))),
    (5, inRange p.p5 1 7),
    (6, if act == 1 then p.actionTarget < 16
        else if act == 7 then true
        else p.actionTarget < 4),
    (7, if act == 5 then inRange p.p7 1 400000
        else if act == 6 then inRange p.p7 1 1000
        else true) ]

/-- The parameters of a kind in ascending order, each with whether it is in range (R12 to R15).
`floor` and `maxSpeed` are those in force on the scope axis (R35). -/
def paramChecks (floor maxSpeed : Nat) : Kind → Params → List (Nat × Bool)
  | .motion .moveAbs, p | .motion .moveRel, p => speedChecks floor maxSpeed p
  | .motion .jog, p => (1, inRange p.p1 0 1) :: speedChecks floor maxSpeed p
  | .motion .dwell, p => [(1, inRange p.p1 0 60000)]
  | .motion .reference, p =>
      [ (1, inRange p.p1 0 1), (2, inRange p.p2 floor maxSpeed), (3, inRange p.p3 1 floor),
        (4, inRange p.p4 0 1), (5, p.pause ≤ 1000 && p.indexUse ≤ 1), (7, p.clearWidth ≤ 100) ]
  | .armWatch, p => watchChecks p
  | .control .stopAxis, p => [(1, inRange p.p1 0 1)]
  | .control .override, p => [(1, inRange p.p1 1 200)]
  | .control .openGate, p | .control .closeGate, p => [(1, inRange p.p1 0 15)]
  | .control .cancelWatch, p => [(1, inRange p.p1 0 479)]
  | .control .hold, _ | .control .resume, _ | .control .advance, _ | .control .setPosition, _
  | .control .clearFault, _ => []

/-- The gate number where GATED applies, then the deadline where DEADLINE applies (R12, R16). -/
def optionChecks (k : Kind) (c : CellWords) : List (Nat × Bool) :=
  match k with
  | .motion _ =>
      [ (8, !c.options.gated || c.gateNumber < 16),
        (9, !c.options.deadline || (1 ≤ c.deadline && c.deadline ≤ 65535)) ]
  | .armWatch | .control _ => []

/-- The detail of the first value out of range, none where all are in range (R12). -/
def firstOutOfRange (checks : List (Nat × Bool)) : Option Nat :=
  (checks.find? (fun c => !c.2)).map (·.1)

/-- Admission check 7 (R31, R35). -/
def rangeCheck (floor maxSpeed : Nat) (k : Kind) (c : CellWords) : Option Nat :=
  firstOutOfRange (paramChecks floor maxSpeed k c.params ++ optionChecks k c)

/-! ### Orders and watches from a cell -/

/-- The direction of P1 of a JOG or a REFERENCE: 0 plus, 1 minus. -/
def dirOfWord (w : Word) : Dir := if w == 0 then .plus else .minus

/-- The opposite direction. -/
def Dir.opposite : Dir → Dir
  | .plus => .minus
  | .minus => .plus

/-- +1 or -1 (R91). -/
def Dir.sign : Dir → Int
  | .plus => 1
  | .minus => -1

/-- The options that apply to a motion kind: those that do not are taken as clear (R16). -/
def Options.applyTo (o : Options) : MotionKind → Options
  | .moveAbs | .moveRel | .jog => { o with observe := o.observe && o.gated }
  | .dwell | .reference => { o with fly := false, smooth := false, observe := o.observe && o.gated }

/-- The order list entry of an admitted motion cell (R7, R37). -/
def entryOf (cell : Nat) (k : MotionKind) (c : CellWords) : Entry where
  cell     := cell
  kind     := k
  opts     := c.options.applyTo k
  gate     := gateOfNat c.gateNumber
  deadline := c.deadline
  params   := c.params

/-- The quantity and source of P1 and P2 (R14, 11.6). -/
def quantityOf (p : Params) : Quantity :=
  let n := p.p2.toNat
  match p.p1.toNat with
  | 1 => .commandedPos (axisOfNat n)
  | 2 => .feedbackPos (axisOfNat n)
  | 3 => .speed (axisOfNat n)
  | 4 => .followingError (axisOfNat n)
  | 5 => .eventInput (axisOfNat n)
  | _ => .elapsed

/-- The condition of P3 (R14, 11.6). -/
def conditionOf (p : Params) : Condition :=
  match p.p3.toNat with
  | 1 => .atOrAbove
  | 2 => .above
  | 3 => .below
  | _ => .equal

/-- The action of P5 with its target and value (R14, 11.6). -/
def actionOf (p : Params) : Action :=
  let t := p.actionTarget
  match p.p5.toNat with
  | 1 => .openGate (gateOfNat t)
  | 2 => .advance (axisOfNat t)
  | 3 => .hold (axisOfNat t)
  | 4 => .stop (axisOfNat t)
  | 5 => .setSpeed (axisOfNat t) p.p7.toNat
  | 6 => .pulseOutput (axisOfNat t) p.p7.toNat
  | _ => .latchOnly

/-! ### Setup blocks (11.4) and the setup check (R181) -/

/-- A field of an axis setup block by its number, and whether the block passes at it. `f k` is the whole
word of field k. -/
def axisFieldOk (f : Nat → Word) : Nat → Bool
  | 1 => inRange (f 1) 0 1
  | 2 => inRange (f 2) 0 1
  | 3 => inRange (f 3) 0 1
  | 4 => inRange (f 4) 1 65535
  | 5 => inRange (f 5) 1 65535
  | 6 => inRange (f 6) 1 10000
  | 7 => inRange (f 7) (f 6).toNat 400000
  | 8 => inRange (f 8) 10 20000000
  | 9 => inRange (f 9) 10 20000000
  | 10 => inRange (f 10) 100 2000000000
  | 11 => inRange (f 11) 10 20000000
  | 12 => inRange (f 12) 0 1
  | 13 => (f 13).toInt < (f 14).toInt
  | 15 => inRange (f 15) 0 2147483647
  | 17 => inRange (f 17) 0 1
  | 18 => inRange (f 18) 0 1
  | 19 => inRange (f 19) 0 2
  | 20 => inRange (f 20) 0 1
  | 21 => inRange (f 21) 1 2147483647
  | _ => true

/-- The first failing field of an axis setup block: field 1 always, fields 2 to 21 where it is 1 (R181). -/
def axisBlockCheck (f : Nat → Word) : Option Nat :=
  if !axisFieldOk f 1 then some 1
  else if f 1 == 0 then none
  else (List.range' 2 20).find? (fun k => !axisFieldOk f k)

/-- A reaction field: 0 RAMP, 1 ABRUPT. -/
def reactionOf (w : Word) : Reaction := if w == 0 then .ramp else .abrupt

/-- The setup that the words of a block stand for (11.4). -/
def setupOf (f : Nat → Word) : AxisSetup where
  enable        := f 1 != 0
  pulseMode     := if f 2 == 0 then .pulseDir else .cwCcw
  encMode       := if f 3 == 0 then .quad4 else .upDown
  ratioNum      := (f 4).toNat
  ratioDen      := (f 5).toNat
  floor         := (f 6).toNat
  maxSpeed      := (f 7).toNat
  accel         := (f 8).toNat
  decel         := (f 9).toNat
  jerk          := (f 10).toNat
  stopDecel     := (f 11).toNat
  windowEnable  := f 12 != 0
  windowLow     := (f 13).toInt
  windowHigh    := (f 14).toInt
  followLimit   := (f 15).toNat
  polarity      := (f 16).extractLsb' 0 6
  limitReaction := reactionOf (f 17)
  followReaction := reactionOf (f 18)
  silence       := if f 19 == 0 then .carryOn else if f 19 == 1 then .rampStop else .abruptStop
  requireRef    := f 20 != 0
  indexSpan     := (f 21).toNat

end Sys2Proof.Machine
end

