-- ==== Sys2Proof/Machine/Ramp.lean ====
section
/-!
DEFINITION. Ramp planning as arithmetic (R73 to R80, R83, R85, R87, R88): lengths of ramps, the speed a
ramp has reached after a number of pulses, and plans. Speeds are held by their squares in 10^-18 (pulses/s)^2,
which a constant rate changes by twice the rate, in that unit, at each pulse (log 9).
-/

namespace Sys2Proof.Machine

/-- The smallest whole number not below `a / b`. -/
def ceilDiv (a b : Nat) : Nat := (a + b - 1) / b

/-- The smallest whole number not below the square root of `n`. -/
def ceilSqrt (n : Nat) : Nat := if isqrt n ^ 2 < n then isqrt n + 1 else isqrt n

/-- The largest number below 2^bits above `r` that meets a test which, once false, stays false. -/
def searchMax (p : Nat → Bool) : Nat → Nat → Nat
  | 0, r => r
  | k + 1, r => searchMax p k (if p (r + 2 ^ k) then r + 2 ^ k else r)

/-- The bits of a search among speeds: no speed is above 400,000 pulses/s (R181). -/
def speedBits : Nat := 19

/-! ### LINEAR ramps (R73) -/

/-- The length of a LINEAR ramp in whole pulses, rounded up (R73, R75). -/
def linearLen (fromSq toSq rate : Nat) : Nat :=
  ceilDiv ((fromSq - toSq) + (toSq - fromSq)) (2 * rate * nano ^ 2)

/-- A LINEAR ramp between two speeds given by their squares. -/
def linearRamp (fromSq toSq rate : Nat) : Ramp where
  fromSq := fromSq
  toSq   := toSq
  len    := linearLen fromSq toSq rate
  shape  := .linear rate

/-- The LINEAR ramp at the rate that reaches the end speed exactly after `len` pulses (R79, R85, R87). -/
def fitRamp (fromSq toSq len : Nat) : Ramp := ⟨fromSq, toSq, len, .fit⟩

/-- No ramp. -/
def noRamp (sq : Nat) : Ramp := ⟨sq, sq, 0, .fit⟩

/-! ### SMOOTH ramps (R74, R88) -/

/-- The moments in a second at which a SMOOTH ramp is reckoned (log 9). -/
def femto : Nat := 10 ^ 15

/-- Speed in 10^-9 pulses/s after `t` (in 10^-15 s) of a piece. -/
def Piece.vAt (p : Piece) (t : Nat) : Int :=
  p.v + p.a * t / femto + p.j * nano * t * t / (2 * femto * femto)

/-- Acceleration in 10^-9 pulses/s^2 after `t` of a piece. -/
def Piece.aAt (p : Piece) (t : Nat) : Int := p.a + p.j * nano * t / femto

/-- Distance in 10^-24 pulses made in `t` of a piece. -/
def Piece.xAt (p : Piece) (t : Nat) : Int :=
  p.v * t + p.a * t * t / (2 * femto) + p.j * nano * t * t * t / (6 * femto * femto)

/-- The length of a piece, the acceleration at its beginning and its jerk. -/
abbrev Segment := Nat × Int × Int

/-- Pieces one after another from a speed. Each begins at its own acceleration: that which is held is the limit itself,
not what a rise of whole moments has reached (R74). -/
def chainPieces (v : Int) : List Segment → List Piece
  | [] => []
  | (d, a, j) :: rest =>
      let p : Piece := ⟨d, v, a, j⟩
      p :: chainPieces (p.vAt d) rest

/-- The time in which an acceleration in 10^-9 pulses/s^2 is gone through at a jerk. -/
def jerkTime (a j : Nat) : Nat := a * femto / (j * nano)

/-- The time of pieces. -/
def piecesTime (ps : List Piece) : Nat := (ps.map (·.dur)).sum

/-- The distance of pieces in 10^-24 pulses. -/
def piecesDist (ps : List Piece) : Int := (ps.map (fun p => p.xAt p.dur)).sum

/-- The distance made after `t` of pieces, in 10^-24 pulses. -/
def piecesXAt : List Piece → Nat → Int
  | [], _ => 0
  | p :: ps, t => if t ≤ p.dur then p.xAt t else p.xAt p.dur + piecesXAt ps (t - p.dur)

/-- Speed and acceleration after `t` of pieces. -/
def piecesVaAt : List Piece → Nat → Int × Int
  | [], _ => (0, 0)
  | [p], t => (p.vAt (min t p.dur), p.aAt (min t p.dur))
  | p :: q :: ps, t => if t ≤ p.dur then (p.vAt t, p.aAt t) else piecesVaAt (q :: ps) (t - p.dur)

/-- The bits of a search among times: no ramp takes 10^6 s. -/
def timeBits : Nat := 70

/-- The time at which pieces have made `k` pulses. -/
def piecesTimeOf (ps : List Piece) (k : Nat) : Nat :=
  searchMax (fun t => t ≤ piecesTime ps && piecesXAt ps t ≤ (k * nano * femto : Nat)) timeBits 0

/-- The S profile of R74 between two speeds in 10^-9 pulses/s: the acceleration rises at the jerk, holds at the limit
itself where it is reached, and falls back to 0. -/
def sProfile (u v : Int) (a j : Nat) : List Segment :=
  let delta := (v - u).natAbs
  let sign : Int := if u ≤ v then 1 else -1
  if a * a * nano ≤ delta * j then
    let t1 := jerkTime (a * nano) j
    let limit := sign * (a * nano : Nat)
    [(t1, 0, sign * j), (delta * femto / (a * nano) - t1, limit, 0), (t1, limit, -sign * j)]
  else
    let t := isqrt (delta * femto * femto / (nano * j))
    [(t, 0, sign * j), (t, sign * (j * nano * t / femto : Nat), -sign * j)]

/-- The length of the S profile of R74 in whole pulses, rounded up (R75): the mean speed times the time. -/
def sLen (u v a j : Nat) : Nat :=
  let delta := (v - u) + (u - v)
  if a * a * nano ≤ delta * j then
    ceilDiv ((u + v) * (delta * j + a * a * nano)) (2 * nano * nano * a * j)
  else
    ceilSqrt (ceilDiv ((u + v) ^ 2 * delta) (nano ^ 3 * j))

/-! ### The rates of a plan (R75) -/

/-- The form, rates and jerk a plan is made with (R75), and the speeds it keeps within (R72): floor speed and
max speed. -/
structure Rates where
  form  : Form
  acc   : Nat
  dec   : Nat
  jerk  : Nat
  floor : Nat
  top   : Nat
  deriving DecidableEq, Repr

/-- A speed in 10^-9 pulses/s from its square. -/
def nanoSpeed (sq : Nat) : Nat := isqrt sq

/-- The square of a speed in 10^-9 pulses/s (log 9). -/
def sqOfNano (v : Int) : Nat := v.toNat ^ 2

/-- The time in which an acceleration returns to zero at a jerk; less where the speed has changed by `room`
before: there the return is cut (R72; log 12). -/
def returnTime (a j room : Nat) : Nat :=
  jerkTime (if 2 * j * nano * room < a ^ 2 then a - isqrt (a ^ 2 - 2 * j * nano * room) else a) j

/-- How far a speed can go before it meets the max speed, rising, or the floor speed, falling, in 10^-9
pulses/s (R72). -/
def Rates.room (r : Rates) (uSq : Nat) (a0 : Int) : Nat :=
  if 0 ≤ a0 then r.top * nano - nanoSpeed uSq else nanoSpeed uSq - r.floor * nano

/-- The piece in which an acceleration returns to zero at the jerk, the speed staying between floor speed and
max speed (R72, R81, R88, R89; log 12). -/
def Rates.returnPiece (r : Rates) (uSq : Nat) (a0 : Int) : Piece :=
  ⟨returnTime a0.natAbs r.jerk (r.room uSq a0), nanoSpeed uSq, a0, if 0 ≤ a0 then -r.jerk else r.jerk⟩

/-- The speed in 10^-9 pulses/s when an acceleration has returned to zero (R72, R81). -/
def Rates.returnSpeed (r : Rates) (uSq : Nat) (a0 : Int) : Int :=
  let p := r.returnPiece uSq a0
  max (r.floor * nano : Nat) (min (r.top * nano : Nat) (p.vAt p.dur))

/-- The length in whole pulses of a distance in 10^-24 pulses, rounded up (R75). -/
def lenOfDist (x : Int) : Nat := ceilDiv x.toNat (nano * femto)

/-- A SMOOTH ramp from a speed and an acceleration to a speed: a non-zero acceleration first returns to
zero at the jerk, then the S profile at the rate `a` follows (R74, R81, R89). -/
def Rates.smoothRamp (r : Rates) (uSq : Nat) (a0 : Int) (v a : Nat) : Ramp :=
  if a0 = 0 then
    let u := nanoSpeed uSq
    ⟨uSq, sqOf v, sLen u (v * nano) a r.jerk,
      .smooth (chainPieces u (sProfile u (v * nano : Nat) a r.jerk))⟩
  else
    let u := r.returnSpeed uSq a0
    let ps := r.returnPiece uSq a0 :: chainPieces u (sProfile u (v * nano : Nat) a r.jerk)
    ⟨uSq, sqOf v, lenOfDist (piecesDist ps), .smooth ps⟩

/-- A SMOOTH deceleration that continues from a negative acceleration: it moves at the jerk to the rate,
holds there if the speed leaves room, and returns to zero as the speed reaches the floor (R88). An acceleration
that cannot return to zero before the floor speed is reached is cut there (R72; log 12). -/
def Rates.smoothContinue (r : Rates) (uSq : Nat) (a0 : Int) : Ramp :=
  let u := nanoSpeed uSq
  let a := r.dec
  let j := r.jerk
  let a1 := a0.natAbs
  let an := a * nano
  let drop := r.room uSq a0
  -- the speed lost in going to the rate and from the rate to zero
  let toRate := ((an ^ 2 - a1 ^ 2) + (a1 ^ 2 - an ^ 2)) / (2 * j * nano)
  let home := an ^ 2 / (2 * j * nano)
  let segs : List Segment :=
    if toRate + home ≤ drop then
      [(jerkTime (an - a1 + (a1 - an)) j, a0, if a1 ≤ an then -j else j),
        ((drop - toRate - home) * femto / an, -(an : Int), 0), (jerkTime an j, -(an : Int), j)]
    else if 2 * j * nano * drop < a1 ^ 2 then [(returnTime a1 j drop, a0, (j : Int))]
    else
      let p := max a1 (isqrt ((2 * j * nano * drop + a1 ^ 2) / 2))
      [(jerkTime (p - a1) j, a0, -(j : Int)), (jerkTime p j, -(p : Int), (j : Int))]
  let ps := chainPieces u segs
  ⟨uSq, sqOf r.floor, lenOfDist (piecesDist ps), .smooth ps⟩

/-! ### A ramp along its pulses -/

/-- The square of the speed a ramp has reached after `k` of its pulses (R92). After its whole length, and
within the last pulse of a rounded length, it is the end speed (R75). -/
def Ramp.sqAt (r : Ramp) (k : Nat) : Nat :=
  if r.len ≤ k then r.toSq
  else match r.shape with
    | .linear rate =>
        if r.fromSq ≤ r.toSq then min (r.fromSq + 2 * rate * nano ^ 2 * k) r.toSq
        else max (r.fromSq - 2 * rate * nano ^ 2 * k) r.toSq
    | .fit => r.fromSq - (r.fromSq - r.toSq) * k / r.len
    | .smooth ps => sqOfNano (piecesVaAt ps (piecesTimeOf ps k)).1

/-- The acceleration of a ramp after `k` of its pulses, in 10^-9 pulses/s^2; 0 after its length (R73, R74). -/
def Ramp.accelAt (r : Ramp) (k : Nat) : Int :=
  if r.len ≤ k then 0
  else match r.shape with
    | .linear rate => if r.fromSq ≤ r.toSq then (rate * nano : Nat) else -(rate * nano : Nat)
    | .fit => -((r.fromSq - r.toSq) / (2 * r.len * nano) : Nat)
    | .smooth ps => (piecesVaAt ps (piecesTimeOf ps k)).2

/-! ### Plans (4.3) -/

/-- The square of the speed left when a non-zero acceleration of a SMOOTH plan has returned to zero. -/
def Rates.effSq (r : Rates) (uSq : Nat) (a0 : Int) : Nat :=
  match r.form with
  | .linear => uSq
  | .smooth => if a0 = 0 then uSq else sqOfNano (r.returnSpeed uSq a0)

/-- The ramp from a speed (by its square) and an acceleration to a whole speed, at the acceleration or the
deceleration of the order (R76). A LINEAR ramp takes no notice of the acceleration. -/
def Rates.ramp (r : Rates) (uSq : Nat) (a0 : Int) (v : Nat) : Ramp :=
  let rate := if r.effSq uSq a0 ≤ sqOf v then r.acc else r.dec
  match r.form with
  | .linear => linearRamp uSq (sqOf v) rate
  | .smooth => r.smoothRamp uSq a0 v rate

/-- The return of a non-zero acceleration to zero, as a ramp of its own (R88). -/
def Rates.returnRamp (r : Rates) (uSq : Nat) (a0 : Int) : Ramp :=
  match r.form with
  | .linear => noRamp uSq
  | .smooth =>
      if a0 = 0 then noRamp uSq
      else
        let p := r.returnPiece uSq a0
        ⟨uSq, r.effSq uSq a0, lenOfDist (p.xAt p.dur), .smooth [p]⟩

/-- Whether both ramps through a peak, rounded up, fit within the length (R77). -/
def Rates.fits (r : Rates) (uSq : Nat) (a0 : Int) (endSpeed length peak : Nat) : Bool :=
  (r.ramp uSq a0 peak).len + (r.ramp (sqOf peak) 0 endSpeed).len ≤ length

/-- The highest whole peak up to the target speed at which both ramps fit, where there is one that is not
below the higher of start and end speed (R77). -/
def Rates.reducedPeak (r : Rates) (uSq : Nat) (a0 : Int) (endSpeed length target : Nat) : Option Nat :=
  let low := max (r.effSq uSq a0) (sqOf endSpeed)
  let peak := searchMax
    (fun p => p ≤ target && (sqOf p < low || r.fits uSq a0 endSpeed length p)) speedBits 0
  if low ≤ sqOf peak && r.fits uSq a0 endSpeed length peak then some peak else none

/-- A plan put together from its first ramp and its peak. The final ramp ends at the target; where it does
not fit behind the first ramp at the order's deceleration, the deceleration is the one needed to reach
the end speed exactly on the target, from the very position of the plan where the first ramp alone is as long
as the length (R72, R79, R85; log 11). Only a first ramp that rises may be cut off by the target: one that ends at
the end speed, or a return of the acceleration that starts below the end speed and is as long as the length (R77,
R81; log 11); a falling one would leave the speed above the end speed there. A JOG reports its edge at the decel
point, or at once where it cannot stop there with the order's deceleration, or decelerates straight (R79, R83). The
commit point lies before the target by the deceleration distance to the floor speed, and not before the plan's position
(R78), also where the deceleration is straight and the decel point lies before it (R83; log 42). -/
def Rates.assemble (r : Rates) (uSq endSpeed length target : Nat) (commit : Bool) (first : Ramp)
    (peakSq : Nat) (straight : Bool) : Plan :=
  let fin := r.ramp peakSq 0 endSpeed
  let fitsBehind := first.len + fin.len ≤ length || (fin.len == 0 && decide (first.fromSq ≤ first.toSq))
  let cutReturn := length ≤ first.len && decide (uSq < sqOf endSpeed)
  let useFirst := fitsBehind || first.len < length || cutReturn
  let first' := if useFirst then first else noRamp uSq
  { form := r.form, acc := r.acc, dec := r.dec, jerk := r.jerk, startSq := uSq, targetSpeed := target,
    peakSq := if useFirst then peakSq else uSq, endSpeed := endSpeed, length := length, first := first',
    decelAt := if fitsBehind && !straight then length - fin.len else first'.len,
    final := if fitsBehind || cutReturn then fin
             else if useFirst then fitRamp peakSq (sqOf endSpeed) (length - first.len)
             else fitRamp uSq (sqOf endSpeed) length,
    commitAt := if commit then some (if useFirst then length - (r.ramp peakSq 0 r.floor).len else 0) else none,
    reportAt := if fitsBehind && !straight then length - fin.len else 0,
    moved := 0 }

/-- The plan of a move over a length, from a speed and acceleration toward a target speed and an end speed
(R76 to R80, R83). `commit` says that the move has FLY, so that a commit point is kept (R78). A start above the
target speed, which an ADVANCE can give, with too little length for a deceleration to it and the final ramp, is
planned straight to the end speed as a replan is (R81, R83; log 48). -/
def Rates.plan (r : Rates) (uSq : Nat) (a0 : Int) (length target endSpeed : Nat) (commit : Bool) : Plan :=
  let eff := r.effSq uSq a0
  if r.fits uSq a0 endSpeed length target && (endSpeed ≤ target) then
    r.assemble uSq endSpeed length target commit (r.ramp uSq a0 target) (sqOf target) false
  else if sqOf target < eff then
    -- too little length for a deceleration to the new target speed and the final ramp (R83)
    r.assemble uSq endSpeed length target commit (r.returnRamp uSq a0) eff true
  else
    match r.reducedPeak uSq a0 endSpeed length target with
    | some p => r.assemble uSq endSpeed length target commit (r.ramp uSq a0 p) (sqOf p) false
    | none =>
        if eff < sqOf endSpeed then
          r.assemble uSq endSpeed length target commit (r.ramp uSq a0 endSpeed) (sqOf endSpeed) false
        else
          r.assemble uSq endSpeed length target commit (r.returnRamp uSq a0) eff false

/-- More pulses than any motion can make: the length of a plan without a target. -/
def openLength : Nat := 2 ^ 33

/-- The plan of a reference phase that has no target: it rises to a speed and stays there (R137, R138). -/
def Rates.openPlan (r : Rates) (uSq speed : Nat) : Plan where
  form := r.form
  acc := r.acc
  dec := r.dec
  jerk := r.jerk
  startSq := uSq
  targetSpeed := speed
  peakSq := sqOf speed
  endSpeed := speed
  length := openLength
  first := r.ramp uSq 0 speed
  decelAt := openLength
  final := noRamp (sqOf speed)
  commitAt := none
  reportAt := openLength
  moved := 0

/-- A plan that is one deceleration to standstill: a first ramp, then the final one. -/
def Rates.stopOf (r : Rates) (uSq : Nat) (first final : Ramp) : Plan where
  form := r.form
  acc := r.acc
  dec := r.dec
  jerk := r.jerk
  startSq := uSq
  targetSpeed := r.floor
  peakSq := final.fromSq
  endSpeed := r.floor
  length := first.len + final.len
  first := first
  decelAt := first.len
  final := final
  commitAt := none
  reportAt := first.len
  moved := 0

/-- The deceleration to standstill at the rate `r.dec`, from a speed and an acceleration, where nothing
bounds it (R87, R88). At the floor speed there is none, but for a SMOOTH one at an acceleration that is rising:
the speed first goes up while that falls to zero. -/
def Rates.freeStop (r : Rates) (uSq : Nat) (a0 : Int) : Ramp :=
  if uSq ≤ sqOf r.floor && (r.form = .linear || a0 ≤ 0) then noRamp (sqOf r.floor)
  else match r.form with
    | .linear => linearRamp uSq (sqOf r.floor) r.dec
    | .smooth => if a0 < 0 then r.smoothContinue uSq a0 else r.smoothRamp uSq a0 r.floor r.dec

/-- A deceleration to standstill bound by a distance, where there is a bound (R87): where standstill would
lie beyond it, the deceleration is the one needed to reach the floor speed exactly there, in LINEAR form,
after an acceleration that was rising has returned to zero (R88). MODEL'S CHOICE (log 52): where that return is as long
as the distance or longer, it leaves no rest for that; where the acceleration is already negative, R88 speaks of the
rest after it has reached zero, and does not say how it gets there. In both the acceleration is dropped, and the
deceleration is LINEAR from the present speed at once. -/
def Rates.stopPlan (r : Rates) (uSq : Nat) (a0 : Int) (bound : Option Nat) : Plan :=
  let free := r.freeStop uSq a0
  match bound with
  | none => r.stopOf uSq (noRamp uSq) free
  | some b =>
      if free.len ≤ b then r.stopOf uSq (noRamp uSq) free
      else
        let pre := r.returnRamp uSq a0
        if 0 < a0 && pre.len < b then
          r.stopOf uSq pre (fitRamp pre.toSq (sqOf r.floor) (b - pre.len))
        else r.stopOf uSq (noRamp uSq) (fitRamp uSq (sqOf r.floor) b)

/-- The square of the planned speed after `m` pulses of a plan. -/
def Plan.sqAt (p : Plan) (m : Nat) : Nat :=
  if m < p.first.len then p.first.sqAt m
  else if m < p.decelAt then p.peakSq
  else p.final.sqAt (m - p.decelAt)

/-- The planned acceleration after `m` pulses of a plan. -/
def Plan.accelAt (p : Plan) (m : Nat) : Int :=
  if m < p.first.len then p.first.accelAt m
  else if m < p.decelAt then 0
  else p.final.accelAt (m - p.decelAt)

/-- After `m` pulses the final ramp is under way: it has begun and is not yet at its end. -/
def Plan.inFinal (p : Plan) (m : Nat) : Bool := p.decelAt ≤ m && m < p.decelAt + p.final.len

/-- The ramp phase after `m` pulses of a plan (R76). Where the final ramp ends short of the length, the axis
cruises on at the end speed (R83). -/
def Plan.phaseAt (p : Plan) (m : Nat) : RampPhase :=
  if m < p.first.len then (if p.first.fromSq ≤ p.first.toSq then .accelerating else .decelerating)
  else if p.inFinal m then .decelerating
  else .cruising

/-- A ramp of the plan is under way (R84). -/
def Plan.rampUnderWay (p : Plan) : Bool := p.moved < p.first.len || p.inFinal p.moved

/-- The acceleration of the plan is zero after its pulses, short of its end: no ramp is under way, or the first
one has just ended (R84). -/
def Plan.betweenRamps (p : Plan) : Bool :=
  p.moved < p.length && (p.moved == p.first.len || !p.rampUnderWay)

/-- Whether a speed is one from which a move can come down to the floor speed within a length (R80). -/
def Rates.canStop (r : Rates) (length w : Nat) : Bool :=
  w ≤ r.floor || (r.ramp (sqOf w) 0 r.floor).len ≤ length

/-- The largest whole speed up to `cap` that meets condition 3 of R80, where it is applied. -/
def Rates.junctionCap (r : Rates) (stopLength : Option Nat) (cap : Nat) : Nat :=
  match stopLength with
  | none => cap
  | some l => searchMax (fun w => w ≤ cap && r.canStop l w) speedBits 0

/-- Whether a running move can still come down to `w` at its target (R85). -/
def Rates.canReach (r : Rates) (uSq : Nat) (a0 : Int) (length w : Nat) : Bool :=
  (r.effSq uSq a0 ≤ sqOf w && (decide (uSq ≤ sqOf w) || decide ((r.returnRamp uSq a0).len ≤ length)))
    || (r.ramp uSq a0 w).len ≤ length

end Sys2Proof.Machine
end

