-- ==== Sys2Proof/Machine/Ops.lean ====
section
/-!
DEFINITION. The named operations over memory and the state's parts: exchange memory, cells, held marks, the
return chain, interrupt causes, the annunciation queue, axes and the agenda of reported changes.
-/

namespace Sys2Proof.Machine

/-! ### Four like things -/

/-- The `i`-th of four. -/
def Quad.get {α : Type} (q : Quad α) (i : Fin 4) : α :=
  match i.val with
  | 0 => q.x0
  | 1 => q.x1
  | 2 => q.x2
  | _ => q.x3

/-- Four with the `i`-th replaced. -/
def Quad.set {α : Type} (q : Quad α) (i : Fin 4) (v : α) : Quad α :=
  match i.val with
  | 0 => { q with x0 := v }
  | 1 => { q with x1 := v }
  | 2 => { q with x2 := v }
  | _ => { q with x3 := v }

/-- A function on each of four. -/
def Quad.map {α β : Type} (f : α → β) (q : Quad α) : Quad β := ⟨f q.x0, f q.x1, f q.x2, f q.x3⟩

/-- The axes in ascending number. -/
def allAxes : List AxisIx := [0, 1, 2, 3]

/-! ### Exchange memory (R188) -/

/-- What an unlisted address reads as: exchange memory is zeroed at power-on (R177). -/
def unlistedByte : Byte := 0

/-- The byte at an address. -/
def memGet : List Host.Cell → Nat → Byte
  | [], _ => unlistedByte
  | (x, v) :: t, a => if x = a then v else memGet t a

/-- A memory with one byte written, in canonical form again. -/
def memPut : List Host.Cell → Nat → Byte → List Host.Cell
  | [], a, b => if b = unlistedByte then [] else [(a, b)]
  | (x, v) :: t, a, b =>
      if a < x then (if b = unlistedByte then (x, v) :: t else (a, b) :: (x, v) :: t)
      else if a = x then (if b = unlistedByte then t else (a, b) :: t)
      else (x, v) :: memPut t a b

/-- Every address of a list lies above a bound. -/
def memAbove (lo : Nat) : List Host.Cell → Bool
  | [] => true
  | (x, _) :: _ => lo < x

/-- The canonical form: addresses strictly rising and within exchange memory, no entry equal to what an
unlisted address reads as. -/
def memWf : List Host.Cell → Bool
  | [] => true
  | (x, v) :: t => memAbove x t && v != unlistedByte && x < Config.memSize && memWf t

/-- The canonical form of the memory of a state. -/
def State.memoryWf (s : State) : Bool := memWf s.mem

/-- The byte at an offset of exchange memory. -/
def State.readByte (s : State) (a : Nat) : Byte := memGet s.mem a

/-- A byte written at an offset; offsets beyond exchange memory have no byte. -/
def State.writeByte (s : State) (a : Nat) (b : Byte) : State :=
  { s with mem := if a < Config.memSize then memPut s.mem a b else s.mem }

/-- The word at an offset, little-endian (00). -/
def State.readWord (s : State) (a : Nat) : Word :=
  s.readByte (a + 3) ++ s.readByte (a + 2) ++ s.readByte (a + 1) ++ s.readByte a

/-- A half word written at an offset, the field alone (R189). -/
def State.writeHalf (s : State) (a : Nat) (h : BitVec 16) : State :=
  (s.writeByte a (h.extractLsb' 0 8)).writeByte (a + 1) (h.extractLsb' 8 8)

/-- A word written whole at an offset (R188). -/
def State.writeWord (s : State) (a : Nat) (w : Word) : State :=
  (s.writeHalf a (w.extractLsb' 0 16)).writeHalf (a + 2) (w.extractLsb' 16 16)

/-- Words written one after another. -/
def State.writeWords (s : State) (ws : List (Nat × Word)) : State :=
  ws.foldl (fun s w => s.writeWord w.1 w.2) s

/-- A memory less the bytes of a range of addresses, which then read 0 (R177). -/
def memZero (lo hi : Nat) (m : List Host.Cell) : List Host.Cell :=
  m.filter (fun c => c.1 < lo || hi ≤ c.1)

/-! ### Cells (R1, 11.6) -/

/-- Where a cell begins (R1). -/
def cellBase (n : Nat) : Nat := 0x800 + 64 * n

/-- The state byte of a cell. -/
def State.cellStateByte (s : State) (n : Nat) : Byte := s.readByte (cellBase n)

/-- The state byte of a cell written, and no other bit of its word (R2, R189). -/
def State.writeCellState (s : State) (n : Nat) (b : Byte) : State := s.writeByte (cellBase n) b

/-- The return link of a cell, bits 16-31 of word 04. -/
def State.returnLink (s : State) (n : Nat) : Nat :=
  (s.readByte (cellBase n + 7) ++ s.readByte (cellBase n + 6)).toNat

/-- The return link of a cell written, and no other bit of its word (R189). -/
def State.writeReturnLink (s : State) (n link : Nat) : State :=
  s.writeHalf (cellBase n + 6) (BitVec.ofNat 16 link)

/-- The words of a result part, in the order of R10 (11.6). -/
def resultWords (n : Nat) (r : Result) : List (Nat × Word) :=
  [ (cellBase n + 0x2C, r.codeWord), (cellBase n + 0x30, BitVec.ofNat 32 r.fires),
    (cellBase n + 0x34, r.cmd), (cellBase n + 0x38, r.fb),
    (cellBase n + 0x3C, BitVec.ofNat 32 r.elapsed) ]

/-- A result part written but for the return link. -/
def State.writeResult (s : State) (n : Nat) (r : Result) : State := s.writeWords (resultWords n r)

/-- A word of memory as a reader sees it that has read some words already: what it read stands, whatever was
written since (R6, R181; log 24). -/
def State.wordSeen (s : State) (seen : List (Nat × Word)) (a : Nat) : Word :=
  match seen.find? (fun r => r.1 == a) with
  | some r => r.2
  | none => s.readWord a

/-- A word of the cell that the walk is at, as the visit in progress reads it: each word is read wholly before
or wholly after a write of the controller CPU (R6; log 24). -/
def State.visitWord (s : State) (a : Nat) : Word := s.wordSeen s.visitRead a

/-- The order fields of a cell as a walk reads them, one word at a time (R6, R26). -/
def State.cellWords (s : State) (n : Nat) : CellWords where
  header := s.visitWord (cellBase n)
  links  := s.visitWord (cellBase n + 0x04)
  params :=
    { p1 := s.visitWord (cellBase n + 0x0C), p2 := s.visitWord (cellBase n + 0x10)
      p3 := s.visitWord (cellBase n + 0x14), p4 := s.visitWord (cellBase n + 0x18)
      p5 := s.visitWord (cellBase n + 0x1C), p6 := s.visitWord (cellBase n + 0x20)
      p7 := s.visitWord (cellBase n + 0x24) }
  timing := s.visitWord (cellBase n + 0x28)

/-! ### Held marks (R4) -/

/-- A number put into a rising list without repeats. -/
def insertNat (n : Nat) : List Nat → List Nat
  | [] => [n]
  | x :: xs => if n < x then n :: x :: xs else if n = x then x :: xs else x :: insertNat n xs

/-- Whether the held mark of a cell is set. -/
def State.isHeld (s : State) (n : Nat) : Bool := s.held.contains n

/-- The held mark of a cell set. -/
def State.setHeld (s : State) (n : Nat) : State := { s with held := insertNat n s.held }

/-! ### Interrupt causes (R155) -/

/-- RETURN set. -/
def State.setReturnCause (s : State) : State := { s with causes := { s.causes with ret := true } }
/-- FAULT set. -/
def State.setFaultCause (s : State) : State := { s with causes := { s.causes with fault := true } }
/-- STATE set. -/
def State.setStateCause (s : State) : State := { s with causes := { s.causes with state := true } }

/-- The module state changed; STATE is set on entry into STOPPED, SILENT or HALTED (R155, R173). -/
def State.enter (s : State) (m : ModState) : State :=
  match m with
  | .stopped | .silent | .halted => { s with modState := m }.setStateCause
  | .powerUp | .starting | .running | .stopping => { s with modState := m }

/-! ### The return chain (R150, R151) -/

/-- A cell linked at the tail of the return chain, and RETURN set where it carries NOTIFY (R151). -/
def State.linkCell (s : State) (n : Nat) (notify : Bool) : State :=
  let s := s.writeReturnLink n noIndex
  let s := match s.chain.getLast? with
    | none => s
    | some tail => s.writeReturnLink tail n
  let s := { s with chain := s.chain ++ [n] }
  if notify then s.setReturnCause else s

/-- A cell that ends: its result part, ENDED, its link (R10, R151). -/
def State.endCell (s : State) (n : Nat) (r : Result) (notify : Bool) : State :=
  ((s.writeResult n r).writeCellState n endedByte).linkCell n notify

/-- A cell that is refused: its result part, REFUSED, its held mark, its link (R10, R36). -/
def State.refuseCell (s : State) (n : Nat) (code : RefusalCode) (detail : Nat) (notify : Bool) : State :=
  (((s.writeResult n { code := code.code, reason := detail }).writeCellState n refusedByte).setHeld n).linkCell
    n notify

/-! ### The agenda (log 7) -/

/-- Jobs put at the end of the agenda. -/
def State.addJobs (s : State) (js : List Job) : State := { s with agenda := s.agenda ++ js }

/-- A changed quantity reported to the watches that observe it (R114). -/
def State.report (s : State) (q : Quantity) (x : Sample) : State :=
  s.addJobs ((s.watches.filter (fun w => w.quantity == q)).map (fun w => .evalWatch w.cell q x))

/-- The Position Block's checks of an axis put on the agenda (R97). -/
def State.addChecks (s : State) (ax : AxisIx) : State :=
  s.addJobs [.check ax .limit, .check ax .ready, .check ax .alarm, .check ax .follow]

/-! ### Axes -/

/-- An axis of the state. -/
def State.axis (s : State) (ax : AxisIx) : Axis := s.axes.get ax

/-- An axis replaced. -/
def State.setAxis (s : State) (ax : AxisIx) (a : Axis) : State := { s with axes := s.axes.set ax a }

/-- An axis changed. -/
def State.updAxis (s : State) (ax : AxisIx) (f : Axis → Axis) : State := s.setAxis ax (f (s.axis ax))

/-- The profile of an axis changed. -/
def State.updProf (s : State) (ax : AxisIx) (f : Profile → Profile) : State :=
  s.updAxis ax (fun a => { a with prof := f a.prof })

/-- The Reference Controller of an axis changed. -/
def State.updRef (s : State) (ax : AxisIx) (f : RefCtl → RefCtl) : State :=
  s.updAxis ax (fun a => { a with ref := f a.ref })

/-- The head of an axis order list. -/
def State.head? (s : State) (ax : AxisIx) : Option Entry := (s.axis ax).list.head?

/-- The head of an axis order list changed. -/
def State.updHead (s : State) (ax : AxisIx) (f : Entry → Entry) : State :=
  s.updAxis ax (fun a => { a with list := match a.list with | [] => [] | e :: es => f e :: es })

/-- The axis state and stop cause changed. -/
def State.setAxisState (s : State) (ax : AxisIx) (st : AxisState) (cause : StopCause) : State :=
  s.updAxis ax (fun a => { a with state := st, stopCause := cause })

/-- The axis emits pulses (R102). -/
def Axis.moving (a : Axis) : Bool := a.prof.phase != .standing

/-- The following error of two positions under a ratio (R95). -/
def followErrorOf (st : AxisSetup) (cmd fb : Word) : Word :=
  satWord (cmd.toInt - (fb.toInt * st.ratioDen).tdiv st.ratioNum)

/-- The magnitude of the following error (R95). -/
def Axis.followMagnitude (a : Axis) : Nat := a.followErr.toInt.natAbs

/-- The following error recomputed and reported (R95, R114). -/
def State.recomputeError (s : State) (ax : AxisIx) : State :=
  let s := s.updAxis ax (fun a => { a with followErr := followErrorOf a.setup a.commanded a.feedback })
  s.report (.followingError ax) (.value (s.axis ax).followMagnitude)

/-- The commanded position changed by motion: reported, and the following error recomputed (R93, R95, R114). -/
def State.moveCommanded (s : State) (ax : AxisIx) (v : Word) : State :=
  let s := s.updAxis ax (fun a => { a with commanded := v })
  (s.report (.commandedPos ax) (.value v.toInt)).recomputeError ax

/-- The feedback position changed by a counted edge (R94, R95, R114). -/
def State.moveFeedback (s : State) (ax : AxisIx) (v : Word) : State :=
  let s := s.updAxis ax (fun a => { a with feedback := v })
  (s.report (.feedbackPos ax) (.value v.toInt)).recomputeError ax

/-- The commanded speed set, with acceleration and phase; a change of it is reported (R114). -/
def State.setSpeed (s : State) (ax : AxisIx) (sq : Nat) (accel : Int) (phase : RampPhase) : State :=
  let s' := s.updProf ax (fun p => { p with speedSq := sq, accel := accel, phase := phase })
  if (s.axis ax).prof.speedSq = sq then s' else s'.report (.speed ax) (.speedSq sq)

/-- Standstill: the speed steps to 0, the plan and a pending replan are discarded (R72, R84, R87, R90). The
checks made during motion end (R97, R102, R104). -/
def State.stand (s : State) (ax : AxisIx) : State :=
  if (s.axis ax).moving then
    let s := s.updAxis ax (fun a =>
      { a with prof := { a.prof with plan := none, pendingReplan := false }
               seen := { a.seen with limit := false, ready := false } })
    s.setSpeed ax 0 0 .standing
  else
    s.updProf ax (fun p => { p with plan := none, pendingReplan := false })

/-! ### The annunciation queue (R160, R161) -/

/-- The entry of a scope in the queue. -/
def State.faultEntry (s : State) (sc : Scope) : Option FaultEntry :=
  s.faults.find? (fun e => e.scope == sc)

/-- An entry with one more fault recorded in it (R161). -/
def FaultEntry.again (e : FaultEntry) (code : Nat) : FaultEntry :=
  { e with lastCode := code, count := if e.count < 255 then e.count + 1 else e.count }

/-- A report recorded: a new entry at the tail, or the entry of its scope counted; FAULT is set where the
entry is made or its count changes (R160, R161). -/
def State.recordFault (s : State) (sc : Scope) (code detail cell : Nat) : State :=
  match s.faultEntry sc with
  | none =>
      let e : FaultEntry :=
        { scope := sc, code := code, detail := detail, cell := cell, time := s.clock, count := 1,
          lastCode := code }
      { s with faults := s.faults ++ [e] }.setFaultCause
  | some old =>
      let s' := { s with faults := s.faults.map (fun e => if e.scope == sc then e.again code else e) }
      if old.count < 255 then s'.setFaultCause else s'

/-- The entry of a scope removed; those behind it close up (R160). -/
def State.removeFault (s : State) (sc : Scope) : State :=
  { s with faults := s.faults.filter (fun e => e.scope != sc) }

/-- Fault codes of R159. -/
def faultSetup : Nat := 101
/-- POST_OVERRUN. -/
def faultPostOverrun : Nat := 102
/-- SUPERVISION. -/
def faultSupervision : Nat := 103
/-- MEMORY_CHECK. -/
def faultMemoryCheck : Nat := 104
/-- LIMIT_SWITCH. -/
def faultLimitSwitch : Nat := 201
/-- WINDOW_TARGET. -/
def faultWindowTarget : Nat := 202
/-- FOLLOWING. -/
def faultFollowing : Nat := 204
/-- DRIVE_ALARM. -/
def faultDriveAlarm : Nat := 205
/-- DRIVE_NOT_READY. -/
def faultDriveNotReady : Nat := 206
/-- OVERTIME. -/
def faultOvertime : Nat := 207
/-- REFERENCE_FAILED. -/
def faultReferenceFailed : Nat := 208
/-- NOT_REFERENCED. -/
def faultNotReferenced : Nat := 209

/-! ### Supervision (R169) -/

/-- The supervision timer loaded with the interval, unless that is 0 (R169). -/
def State.loadSupervision (s : State) : State :=
  { s with supTimer := if s.supInterval = 0 then none else some s.supInterval }

/-- An access that counts as controller CPU activity: it loads the timer while the module is RUNNING (R169). -/
def State.activity (s : State) : State := if s.modState = .running then s.loadSupervision else s

/-! ### COLLECT (R153, R154) -/

/-- A COLLECT read that detaches the first `n` cells of the return chain: the word it returns names their head
and their number, their held marks are cleared, and the rest of the chain stays. It counts as controller CPU
activity (R153, R154, R169). -/
def State.detach (s : State) (n : Nat) : State :=
  let gone := s.chain.take n
  { s with
    collectWord := halves (gone.headD noIndex) gone.length
    held        := s.held.filter (fun c => !gone.contains c)
    chain       := s.chain.drop n }.activity

/-- The return link of the last of the first `n` cells of the chain is FFFF Hex, as where a COLLECT detached
them before the next cell was linked (R154). -/
def State.endLinkAt (s : State) (n : Nat) : State :=
  match (s.chain.take n).getLast? with
  | some c => s.writeReturnLink c noIndex
  | none => s

/-- COLLECT reads that fall between two linkings of one event, in their order, each with the number of cells it
detaches (R154). The first detaches more than the `lo - 1` cells that were there before the event; none detaches
the last cell linked. A number that is no such place is no read. -/
def State.collectsInside (s : State) (lo : Nat) : List Nat → State
  | [] => s
  | n :: ns =>
      if lo ≤ n && n < s.chain.length then ((s.endLinkAt n).detach n).collectsInside 0 ns
      else s.collectsInside lo ns

/-! ### Orders left open -/

/-- A list in the order that a list of picks gives: each pick names one of those left, and without a pick
the first of them is next. -/
def pickOrderGo {α : Type} : Nat → List Nat → List α → List α
  | 0, _, l => l
  | n + 1, picks, l =>
      let i := picks.headD 0 % l.length
      match l[i]? with
      | none => []
      | some x => x :: pickOrderGo n picks.tail (l.eraseIdx i)

/-- Every order of a list is `pickOrder` of it for some picks (logs 1 and 7). -/
def pickOrder {α : Type} (picks : List Nat) (l : List α) : List α := pickOrderGo l.length picks l

/-- A millisecond count one higher, saturating (R18, R19, R112). -/
def countMs (n : Nat) : Nat := min (n + 1) maxCount

/-- A running timer one lower (R66, R143). -/
def timerTick : Option Nat → Option Nat
  | none => none
  | some n => some (n - 1)

end Sys2Proof.Machine
end

