-- ==== Sys2Proof/Machine/Orders.lean ====
section
/-!
DEFINITION. How orders end: bindings, flushes, ends of heads, fault reports and reactions, standstill by a
ramp (chapters 3, 4.7 and 9).
-/

namespace Sys2Proof.Machine

/-- MOVE_ABS, MOVE_REL or JOG (R58, R62). -/
def MotionKind.moves : MotionKind → Bool
  | .moveAbs | .moveRel | .jog => true
  | .dwell | .reference => false

/-- MOVE_ABS or MOVE_REL (R53, R57). -/
def MotionKind.positional : MotionKind → Bool
  | .moveAbs | .moveRel => true
  | .jog | .dwell | .reference => false

/-- The cell index a fault report of an axis carries: that of the head when it is WAITING or ACTIVE (R97, R159). -/
def Axis.reportCell (a : Axis) : Nat :=
  match a.list.head? with
  | some e => if e.status = .admitted then noIndex else e.cell
  | none => noIndex

/-- The running cell index of the axis image (R44). -/
def Axis.runningCell (a : Axis) : Nat := a.reportCell

/-! ### Rates (R75) -/

/-- A rate of an order, or the axis default where it is 0 (R12). -/
def rateOr (w : Word) (default : Nat) : Nat := if w == 0 then default else w.toNat

/-- LINEAR at the defaults of an axis (R75). -/
def defaultRates (st : AxisSetup) : Rates :=
  { form := .linear, acc := st.accel, dec := st.decel, jerk := st.jerk, floor := st.floor, top := st.maxSpeed }

/-- The form, rates and jerk of an order on an axis (R75). REFERENCE motion is LINEAR at the defaults (R13). -/
def orderRates (st : AxisSetup) (e : Entry) : Rates :=
  if e.kind.moves then
    { form := if e.opts.smooth then .smooth else .linear
      acc := rateOr e.params.p3 st.accel, dec := rateOr e.params.p4 st.decel
      jerk := rateOr e.params.p5 st.jerk, floor := st.floor, top := st.maxSpeed }
  else defaultRates st

/-- The rates of a stop ramp at the stop decel, in the form of the order (R68, R75). -/
def stopRates (st : AxisSetup) (e : Option Entry) : Rates :=
  { (match e with
    | some e => orderRates st e
    | none => defaultRates st) with dec := st.stopDecel }

/-- Pulses from a position to a target in a direction, 0 where it does not lie ahead. -/
def distanceTo (cmd : Word) (target : Int) (d : Dir) : Nat := ((target - cmd.toInt) * d.sign).toNat

/-- Pulses to the end of the signed 32-bit range in the direction of travel (R87). -/
def Axis.rangeBound (a : Axis) : Nat :=
  match a.prof.dir with
  | .plus => (maxInt32 - a.commanded.toInt).toNat
  | .minus => (a.commanded.toInt + maxInt32).toNat

/-- A deceleration to standstill begun: the plan of the order is discarded and its deceleration becomes the
plan; a pending replan is discarded (R84, R87). -/
def State.beginStop (s : State) (ax : AxisIx) (r : Rates) (bound : Option Nat) : State :=
  let a := s.axis ax
  let b := match bound with
    | none => a.rangeBound
    | some d => min d a.rangeBound
  let p := r.stopPlan a.prof.speedSq a.prof.accel (some b)
  s.updProf ax (fun q =>
    { q with plan := some p, pendingReplan := false, accel := p.accelAt 0, phase := .decelerating })

/-- The plan of an axis has been made to its end. -/
def Axis.planDone (a : Axis) : Bool :=
  match a.prof.plan with
  | some p => p.length ≤ p.moved
  | none => false

/-! ### Ends -/

/-- What the result part of an ending motion order holds (R17, R18, R21). -/
def endResult (a : Axis) (e : Entry) (code : EndCode) (reason : Nat) : Result where
  code    := code.code
  reason  := reason
  fly     := if e.status = .active && e.kind.moves then e.fly else .none
  cmd     := a.commanded
  fb      := a.feedback
  elapsed := if e.status = .active then e.elapsed else 0

/-- A motion order's cell ended; its entry has left the list (R10, R45). -/
def State.endEntry (s : State) (ax : AxisIx) (code : EndCode) (reason : Nat) (e : Entry) : State :=
  s.endCell e.cell (endResult (s.axis ax) e code reason) e.opts.notify

/-- The Reference Controller after a run: only a clear pulse goes on (R134, R144). -/
def RefCtl.afterRun (r : RefCtl) : RefCtl := { clearTimer := r.clearTimer, clearOut := r.clearOut }

/-- A binding dropped: the bound mark is cleared and the running order's fly outcome becomes FLY_DECLINED 5
(R21, R60). -/
def State.dropBinding (s : State) (ax : AxisIx) : State :=
  match (s.axis ax).list with
  | e :: n :: rest =>
      if n.bound then
        s.updAxis ax (fun a =>
          { a with list := { e with fly := .declined 5, decided := true } :: { n with bound := false } :: rest })
      else s
  | _ => s

/-- The head ends and leaves the list, its gate's waiting record (R130) and, a started REFERENCE, the
Reference Controller; STOPPED and FAULTED clear the referenced flag of a started REFERENCE (R45, R109). -/
def State.endHead (s : State) (ax : AxisIx) (code : EndCode) (reason : Nat) : State :=
  match (s.axis ax).list with
  | [] => s
  | e :: rest =>
      let run := e.kind = .reference && e.status = .active
      let s := s.updAxis ax (fun a =>
        { a with list := rest
                 ref := if run then a.ref.afterRun else a.ref
                 referenced := if run && (code = .stopped || code = .faulted) then false else a.referenced })
      let s := if e.status = .waiting then { s with waiting := s.waiting.filter (fun w => w.2 != ax) } else s
      s.endEntry ax code reason e

/-- Entries ended FLUSHED one after another (R46). -/
def State.endFlushed (s : State) (ax : AxisIx) (es : List Entry) : State :=
  es.foldl (fun s e => s.endEntry ax .flushed 0 { e with bound := false }) s

/-- A flush: every non-head entry ends FLUSHED, from the entry behind the head to the tail; a binding is
dropped (R46). -/
def State.flushTail (s : State) (ax : AxisIx) : State :=
  let s := s.dropBinding ax
  let tail := (s.axis ax).list.tail
  (s.updAxis ax (fun a => { a with list := a.list.take 1 })).endFlushed ax tail

/-- Every entry ends FLUSHED: the rest of a list whose head has ended (R61), or a list admitted during a
fault ramp (R164). -/
def State.flushAll (s : State) (ax : AxisIx) : State :=
  let all := (s.axis ax).list
  (s.updAxis ax (fun a => { a with list := [] })).endFlushed ax all

/-- The head ends at standstill and the axis becomes IDLE (R45, R47). -/
def State.finishHead (s : State) (ax : AxisIx) (code : EndCode) : State :=
  ((s.stand ax).endHead ax code 0).setAxisState ax .idle .none

/-! ### Faults of an axis (R69, R163, R164) -/

/-- The axis becomes FAULTED: pulses cease, the stop cause reads FAULT, the pending-fault mark is cleared,
and every entry left in the list ends FLUSHED (R47, R90, R163, R164). -/
def State.becomeFaulted (s : State) (ax : AxisIx) : State :=
  let s := s.stand ax
  let s := s.updAxis ax (fun a => { a with state := .faulted, stopCause := .fault, pendingFault := false })
  s.flushAll ax

/-- A phase that runs at creep speed (R136, R147). -/
def RefPhase.creeps : RefPhase → Bool
  | .clear | .creep | .index => true
  | .none | .approach | .seekBack | .clearPulse | .offset | .pause => false

/-- What the first fault of an axis does to its list: a binding is dropped, an ACTIVE or WAITING head ends
FAULTED, and the rest is flushed (R69). -/
def State.faultList (s : State) (ax : AxisIx) (code : Nat) : State :=
  let s' := s.dropBinding ax
  match (s.axis ax).list.head? with
  | some e => if e.status = .admitted then s'.flushAll ax else (s'.endHead ax .faulted code).flushAll ax
  | none => s'.flushAll ax

/-- The fault ramp of a moving axis: STOPPING with cause FAULT, at the stop decel, unbound by any target
(R69, R87, R163). -/
def State.faultRamp (s : State) (ax : AxisIx) (rates : Rates) : State :=
  let s := s.updAxis ax (fun a => { a with state := .stopping, stopCause := .fault, pendingFault := true })
  let s := s.beginStop ax rates none
  if (s.axis ax).planDone then s.becomeFaulted ax else s.addChecks ax

/-- The reaction to the first fault of an axis (R69, R163): a moving axis with the RAMP reaction makes the
fault ramp, in the form of the ended order; any other axis is FAULTED at once. At creep speed the stop is
abrupt (R147). -/
def State.firstFault (s : State) (ax : AxisIx) (code : Nat) (reaction : Reaction) : State :=
  let a := s.axis ax
  let s := s.faultList ax code
  if a.moving && reaction = .ramp && !a.ref.phase.creeps then
    s.faultRamp ax (stopRates a.setup a.list.head?)
  else s.becomeFaulted ax

/-- The reaction of an axis to a fault in its state (R163, R164). -/
def State.react (s : State) (ax : AxisIx) (code : Nat) (reaction : Reaction) : State :=
  match (s.axis ax).state with
  | .disabled | .faulted => s
  | .stopping =>
      if (s.axis ax).stopCause = .fault then
        match reaction with
        | .ramp => s
        | .abrupt => s.becomeFaulted ax
      else s.firstFault ax code reaction
  | .idle | .waiting | .running | .holding | .held => s.firstFault ax code reaction

/-- An axis fault reported: recorded, and its reaction carried out (R159 to R164). -/
def State.axisFault (s : State) (ax : AxisIx) (code detail : Nat) (reaction : Reaction) : State :=
  (s.recordFault (.axis ax) code detail (s.axis ax).reportCell).react ax code reaction

/-- The detail of LIMIT_SWITCH: 1 plus, 2 minus (R102). -/
def Dir.limitDetail : Dir → Nat
  | .plus => 1
  | .minus => 2

/-- LIMIT_SWITCH in a direction (R102). It counts as found until it ceases to hold (R97). -/
def State.limitFault (s : State) (ax : AxisIx) (d : Dir) : State :=
  let s := if (s.axis ax).moving then s.updAxis ax (fun a => { a with seen := { a.seen with limit := true } }) else s
  s.axisFault ax faultLimitSwitch d.limitDetail (s.axis ax).setup.limitReaction

/-- DRIVE_NOT_READY (R104). -/
def State.notReadyFault (s : State) (ax : AxisIx) : State := s.axisFault ax faultDriveNotReady 0 .abrupt

/-! ### Gates (R126, R128) -/

/-- A gate is open. -/
def State.gateOpen (s : State) (g : Fin 16) : Bool := s.gates[g]

/-- A gate opened or closed, without arbitration. -/
def State.setGate (s : State) (g : Fin 16) (v : Bool) : State := { s with gates := s.gates.set g v }

/-- An open gate's answer to a claim: a consuming one closes it, an observing one leaves it (R128). -/
def State.grantClaim (s : State) (e : Entry) : State :=
  if e.opts.observe then s else s.setGate e.gate false

/-! ### Watches on assigned positions (R115, R118) -/

/-- Whether a condition holds of a quantity's value, on the mathematical values (R115). A speed is compared
by its square. An event input is its active state. -/
def Condition.holds (c : Condition) (t : Int) : Sample → Bool
  | .value v =>
      match c with
      | .atOrAbove => t ≤ v
      | .above => t < v
      | .below => v < t
      | .equal => v = t
  | .speedSq sq =>
      match c with
      | .atOrAbove => t ≤ 0 || sqOf t.toNat ≤ sq
      | .above => t < 0 || sqOf t.toNat < sq
      | .below => 0 < t && sq < sqOf t.toNat
      | .equal => 0 ≤ t && sq = sqOf t.toNat
  | .level b => b

/-- The present value of a quantity (R114). -/
def State.sample (s : State) (w : Watch) : Sample :=
  match w.quantity with
  | .commandedPos ax => .value (s.axis ax).commanded.toInt
  | .feedbackPos ax => .value (s.axis ax).feedback.toInt
  | .speed ax => .speedSq (s.axis ax).prof.speedSq
  | .followingError ax => .value (s.axis ax).followMagnitude
  | .eventInput i => .level (s.events.get i)
  | .elapsed => .value w.elapsed

/-- Whether a watch's condition holds at present (R117). -/
def State.watchHolds (s : State) (w : Watch) : Bool := w.condition.holds w.threshold (s.sample w)

/-- A quantity that an assignment of positions changes on an axis (R118). -/
def Quantity.assignedOn (q : Quantity) (ax : AxisIx) : Bool :=
  q == .commandedPos ax || q == .feedbackPos ax || q == .followingError ax

/-- Positions assigned to an axis: both counters and the following error in one step, and the silent update
of the watches on them (R107, R118, R142). -/
def State.assignPositions (s : State) (ax : AxisIx) (cmd fb : Word) (referenced : Bool) : State :=
  let s := s.updAxis ax (fun a =>
    { a with commanded := cmd, feedback := fb, referenced := referenced,
             followErr := followErrorOf a.setup cmd fb })
  { s with watches := s.watches.map (fun w =>
      if w.quantity.assignedOn ax then { w with truth := s.watchHolds w } else w) }

end Sys2Proof.Machine
end

