-- ==== Sys2Proof/Machine/Reference.lean ====
section
/-!
DEFINITION. Reference runs: the phases, their ends, the reference edge and the position assignment
(chapter 7).
-/

namespace Sys2Proof.Machine

/-- The search direction of a REFERENCE order (R13). -/
def Entry.searchDir (e : Entry) : Dir := dirOfWord e.params.p1

/-- The search signal is the limit input in the search direction, not the reference switch (R136). -/
def Entry.searchesLimit (e : Entry) : Bool := e.params.p4 != 0

/-- The search signal is active (R136). -/
def Axis.searchActive (a : Axis) (e : Entry) : Bool :=
  if e.searchesLimit then a.limitActive e.searchDir else a.referenceActive

/-- The phase shown, with no next phase (R134). -/
def State.setPhase (s : State) (ax : AxisIx) (ph : RefPhase) : State :=
  s.updRef ax (fun r => { r with phase := ph, next := .none, pauseTimer := none, rampStop := false })

/-- REFERENCE_FAILED with the detail phase × 16 + reason and the reaction of setup field 17 (R147). -/
def State.refFail (s : State) (ax : AxisIx) (ph : RefPhase) (reason : Nat) : State :=
  s.axisFault ax faultReferenceFailed (ph.code * 16 + reason) (s.axis ax).setup.limitReaction

/-- SEEK_BACK met the opposite limit: REFERENCE_FAILED 34 in the place of LIMIT_SWITCH, so the condition
counts as found (R97, R138). -/
def State.seekBackFail (s : State) (ax : AxisIx) : State :=
  (s.updAxis ax (fun a => { a with seen := { a.seen with limit := a.moving } })).refFail ax .seekBack 2

/-- Motion begun from standstill: the direction is set, and the speed steps up from 0 (R72, R91). -/
def State.beginMotion (s : State) (ax : AxisIx) (d : Dir) (plan : Option Plan) (speed : Nat)
    (phase : RampPhase) : State :=
  let s := s.updProf ax (fun p => { p with dir := d, plan := plan, pendingReplan := false })
  let accel := match plan with
    | some p => p.accelAt 0
    | none => 0
  s.setSpeed ax (sqOf speed) accel phase

/-- The order ends COMPLETED (R143 to R145). -/
def State.refComplete (s : State) (ax : AxisIx) : State := s.finishHead ax .completed

/-- APPROACH begins, the start checks made but for the search limit, which is exempt (R137, R146). -/
def State.beginApproach (s : State) (ax : AxisIx) (e : Entry) : State :=
  let s := s.setPhase ax .approach
  let a := s.axis ax
  if !a.readyActive then s.notReadyFault ax
  else
    s.beginMotion ax e.searchDir
      (some ((defaultRates a.setup).openPlan (sqOf a.setup.floor) e.params.p2.toNat)) a.setup.floor .accelerating

/-- SEEK_BACK begins (R138, R146). -/
def State.beginSeekBack (s : State) (ax : AxisIx) (e : Entry) : State :=
  let s := s.setPhase ax .seekBack
  let s := s.updRef ax (fun r => { r with switchSeen := (s.axis ax).referenceActive })
  let a := s.axis ax
  let d := e.searchDir.opposite
  if !a.readyActive then s.notReadyFault ax
  else if a.limitActive d then s.seekBackFail ax
  else
    s.beginMotion ax d
      (some ((defaultRates a.setup).openPlan (sqOf a.setup.floor) e.params.p2.toNat)) a.setup.floor .accelerating

/-- CREEP begins (R140, R146). -/
def State.beginCreep (s : State) (ax : AxisIx) (e : Entry) : State :=
  let s := s.setPhase ax .creep
  let a := s.axis ax
  if a.searchActive e then s.refFail ax .creep 4
  else if !a.readyActive then s.notReadyFault ax
  else if !e.searchesLimit && a.limitActive e.searchDir then s.limitFault ax e.searchDir
  else s.beginMotion ax e.searchDir none e.params.p3.toNat .cruising

/-- CLEAR begins; where the search signal is inactive it ends at once and CREEP follows directly (R139, R146). -/
def State.beginClear (s : State) (ax : AxisIx) (e : Entry) : State :=
  let s := s.setPhase ax .clear
  let a := s.axis ax
  let d := e.searchDir.opposite
  if !a.searchActive e then s.beginCreep ax e
  else if !a.readyActive then s.notReadyFault ax
  else if a.limitActive d then s.limitFault ax d
  else s.beginMotion ax d none e.params.p3.toNat .cruising

/-- The direction of an offset (R145). -/
def dirOfInt (v : Int) : Dir := if v < 0 then .minus else .plus

/-- OFFSET begins, or the order ends where the offset is 0 (R145, R146). MODEL'S CHOICE (log 50): a target outside
the 32-bit range is judged first (REFERENCE_FAILED 117), then drive ready, then the limit; where two fail at once the
manual does not say which is reported. -/
def State.beginOffset (s : State) (ax : AxisIx) (e : Entry) : State :=
  let offset := e.params.offset
  if offset = 0 then s.refComplete ax
  else
    let s := s.setPhase ax .offset
    let a := s.axis ax
    let target := a.commanded.toInt + offset
    let d := dirOfInt offset
    if target < minInt32 || maxInt32 < target then s.refFail ax .offset 5
    else if !a.readyActive then s.notReadyFault ax
    else if a.limitActive d then s.limitFault ax d
    else
      let s := s.updHead ax (fun e => { e with target := target, dir := d })
      let p := (defaultRates a.setup).plan (sqOf a.setup.floor) 0 offset.natAbs e.params.p2.toNat
        a.setup.floor false
      s.beginMotion ax d (some p) a.setup.floor (p.phaseAt 0)

/-- CLEAR_PULSE begins: the clear output becomes active and its timer is loaded with the width (R144). -/
def State.beginClearPulse (s : State) (ax : AxisIx) (e : Entry) : State :=
  (s.setPhase ax .clearPulse).updRef ax
    (fun r => { r with clearOut := true, clearTimer := some e.params.clearWidth })

/-- A phase begins. -/
def State.beginPhase (s : State) (ax : AxisIx) (e : Entry) : RefPhase → State
  | .approach => s.beginApproach ax e
  | .seekBack => s.beginSeekBack ax e
  | .clear => s.beginClear ax e
  | .creep => s.beginCreep ax e
  | .clearPulse => s.beginClearPulse ax e
  | .offset => s.beginOffset ax e
  | .none | .index | .pause => s

/-- A PAUSE of the length in P5, then a phase; a pause of 0 ms is not made (R143). -/
def State.pauseThen (s : State) (ax : AxisIx) (e : Entry) (next : RefPhase) : State :=
  if e.params.pause = 0 then s.beginPhase ax e next
  else s.updRef ax (fun r =>
    { r with phase := .pause, next := next, pauseTimer := some e.params.pause, rampStop := false })

/-- A REFERENCE order starts: drive ready, then the first phase from the input states (R135). -/
def State.startReference (s : State) (ax : AxisIx) (e : Entry) : State :=
  let a := s.axis ax
  if !a.readyActive then s.notReadyFault ax
  else if a.searchActive e then s.beginClear ax e
  else if !e.searchesLimit && a.limitActive e.searchDir then s.beginSeekBack ax e
  else s.beginApproach ax e

/-- The end of APPROACH or SEEK_BACK at standstill (R137, R138). -/
def State.refStood (s : State) (ax : AxisIx) (e : Entry) : State :=
  let s := s.stand ax
  let a := s.axis ax
  match a.ref.phase with
  | .approach =>
      if a.searchActive e then s.pauseThen ax e .clear
      else if e.searchesLimit then s.pauseThen ax e .creep
      else s.pauseThen ax e .seekBack
  | .seekBack => s.pauseThen ax e .creep
  | .none | .clear | .creep | .index | .clearPulse | .offset | .pause => s

/-- The ramp-stop of APPROACH or SEEK_BACK begins: LINEAR at the default decel, bound by no target (R136). -/
def State.refRampStop (s : State) (ax : AxisIx) (e : Entry) : State :=
  let s := s.updRef ax (fun r => { r with rampStop := true })
  let s := s.beginStop ax (defaultRates (s.axis ax).setup) none
  if (s.axis ax).planDone then s.refStood ax e else s

/-- The reference edge: the counters are latched and the axis stops abruptly; the assignment follows when
the stop is complete (R142). -/
def State.refEdge (s : State) (ax : AxisIx) : State :=
  (s.updRef ax (fun r =>
    { r with latchedCmd := (s.axis ax).commanded, latchedFb := (s.axis ax).feedback, assignDue := true })).stand ax

/-- INDEX begins at CREEP's edge, without a stop (R140, R141). -/
def State.beginIndex (s : State) (ax : AxisIx) : State :=
  let s := (s.setPhase ax .index).updRef ax (fun r => { r with indexStart := (s.axis ax).commanded })
  if (s.axis ax).indexActive then s.refFail ax .index 3 else s

/-- What a change of an input means to the phase of a running reference run (R137 to R141). -/
def State.refInputOf (s : State) (ax : AxisIx) (e : Entry) : State :=
  let a := s.axis ax
  match a.ref.phase with
  | .approach =>
      if !a.ref.rampStop && (a.searchActive e || (!e.searchesLimit && a.limitActive e.searchDir))
      then s.refRampStop ax e else s
  | .seekBack =>
      if a.ref.rampStop then s
      else if a.referenceActive then s.updRef ax (fun r => { r with switchSeen := true })
      else if a.ref.switchSeen then s.refRampStop ax e
      else s
  | .clear => if a.searchActive e then s else (s.stand ax).pauseThen ax e .creep
  | .creep =>
      if !a.searchActive e then s
      else if e.params.indexUse = 0 then s.refEdge ax
      else s.beginIndex ax
  | .index => if a.indexActive then s.refEdge ax else s
  | .none | .clearPulse | .offset | .pause => s

/-- A change of an input reaches a reference run that is RUNNING; edges met during a stop ramp, or after the
reference edge, are not acted on (R134, R148). -/
def State.refInput (s : State) (ax : AxisIx) : State :=
  let a := s.axis ax
  match a.list.head? with
  | none => s
  | some e =>
      if a.state = .running && e.kind = .reference && !a.ref.assignDue then s.refInputOf ax e else s

/-- The phase after the standstill at the reference edge, if any (R143, R144). -/
def Entry.afterEdge (e : Entry) : RefPhase :=
  if e.params.clearWidth ≠ 0 then .clearPulse else if e.params.offset ≠ 0 then .offset else .none

/-- P6 scaled to encoder counts (R142). -/
def scaledToEncoder (st : AxisSetup) (p6 : Word) : Word :=
  wordOfInt ((p6.toInt * st.ratioNum).tdiv st.ratioDen)

/-- The position assignment, and what follows it (R142, R143). MODEL'S CHOICE (log 43): the check of the following
error that it sets off (R98) comes after what follows. With no phase to follow, the order ends COMPLETED and the next
head starts before the check; with a clear pulse or an offset to follow, the PAUSE, or after a pause of 0 ms that
phase itself, begins before the check (the clear output active, the offset motion begun). The check may then fault
that axis. -/
def State.assignReference (s : State) (ax : AxisIx) : State :=
  let a := s.axis ax
  match a.list.head? with
  | none => s
  | some e =>
      if !a.ref.assignDue then s
      else
        let cmd := e.params.p6 + (a.commanded - a.ref.latchedCmd)
        let fb := scaledToEncoder a.setup e.params.p6 + (a.feedback - a.ref.latchedFb)
        let s := s.updRef ax (fun r => { r with assignDue := false })
        let s := s.assignPositions ax cmd fb true
        let s := s.addJobs [.check ax .follow]
        match e.afterEdge with
        | .none => s.refComplete ax
        | ph => s.pauseThen ax e ph

/-- The pulse that completes the index search span (R141). -/
def State.indexSpan (s : State) (ax : AxisIx) : State :=
  let a := s.axis ax
  if a.ref.phase = .index && a.state = .running && a.moving
      && a.setup.indexSpan ≤ (a.commanded.toInt - a.ref.indexStart.toInt).natAbs
  then s.refFail ax .index 1 else s

/-- The stop request of a started REFERENCE order (R148). `abrupt` is the silence action ABRUPT_STOP. -/
def State.stopReference (s : State) (ax : AxisIx) (e : Entry) (cause : StopCause) (abrupt : Bool) : State :=
  let a := s.axis ax
  if a.moving && !a.ref.phase.creeps && !abrupt then
    let bound := if a.ref.phase = .offset then some (distanceTo a.commanded e.target e.dir) else none
    let s := s.setAxisState ax .stopping cause
    let s := s.updAxis ax (fun a => { a with rampEnd := .stopped })
    let s := s.beginStop ax (stopRates a.setup (some e)) bound
    if (s.axis ax).planDone then s.finishHead ax .stopped else s
  else s.finishHead ax .stopped

end Sys2Proof.Machine
end

