-- ==== Sys2Proof/Machine/Start.lean ====
section
/-!
DEFINITION. Starting orders: start checks, plans, the flying decision and the junction, gates at the head,
replans (sections 3.3, 3.5, 4.3 to 4.6, 5.4).
-/

namespace Sys2Proof.Machine

/-! ### Targets and target speeds -/

/-- The edge of a JOG in a direction (R101). Of an enabled window it is the window's, also where that is
−2,147,483,648, past the −2,147,483,647 of R93 (log 13). -/
def jogEdge (st : AxisSetup) (d : Dir) : Int :=
  match d with
  | .plus => if st.windowEnable then st.windowHigh else maxInt32
  | .minus => if st.windowEnable then st.windowLow else -maxInt32

/-- One position lies beyond another in a direction (R58). -/
def beyond (d : Dir) (from_ to_ : Int) : Bool :=
  match d with
  | .plus => from_ < to_
  | .minus => to_ < from_

/-- The target of a move, or the edge of a JOG, from a position (R50, R58, R101). -/
def Entry.targetFrom (e : Entry) (st : AxisSetup) (base : Int) : Int :=
  match e.kind with
  | .moveAbs => e.params.p1.toInt
  | .moveRel => base + e.params.p1.toInt
  | .jog => jogEdge st (dirOfWord e.params.p1)
  | .dwell | .reference => base

/-- The travel direction of a move from a position to its target, or of a JOG (R50). -/
def Entry.dirFrom (e : Entry) (base target : Int) : Dir :=
  match e.kind with
  | .jog => dirOfWord e.params.p1
  | .moveAbs | .moveRel | .dwell | .reference => if target < base then .minus else .plus

/-- A speed under the override percentage, truncated and clamped to floor speed…max speed (R72, R82, R86). -/
def scaledSpeed (st : AxisSetup) (override speed : Nat) : Nat :=
  max st.floor (min st.maxSpeed (speed * override / 100))

/-- The target speed of an order: P2, or the speed a SET_SPEED put in its place, under the override (R76, R86). -/
def Axis.targetSpeed (a : Axis) (e : Entry) : Nat :=
  scaledSpeed a.setup a.prof.override (e.newSpeed.getD e.params.p2.toNat)

/-! ### Plans of the head -/

/-- A plan of the head from the present position and speed and the acceleration `a0` toward its target, with an
end speed (R76, R79, R83). `a0` is the acceleration the axis moves with: where a first plan calls for another at
the same moment (the flying decision at the start of a move, R78, R80), both are made from the same one. A plan made
on the target itself makes no pulse and leaves it as it is. -/
def State.planHead (s : State) (ax : AxisIx) (a0 : Int) (e : Entry) (endSpeed : Nat) : State :=
  let a := s.axis ax
  let r := orderRates a.setup e
  let p := r.plan a.prof.speedSq a0 (distanceTo a.commanded e.target e.dir)
    (a.targetSpeed e) endSpeed (e.opts.fly && e.kind.positional)
  s.updProf ax (fun q =>
    { q with plan := some p, pendingReplan := false, accel := if p.length = 0 then a0 else p.accelAt 0,
             phase := p.phaseAt 0 })

/-! ### The flying decision (R57, R58, R80) -/

/-- The fly conditions of R58 in their order, on the second entry `n` behind the head `e`; `base` stands for
the running order's target (R65). The answer is the reason of the first that fails. -/
def State.flyFails (s : State) (st : AxisSetup) (e : Entry) (n : Option Entry) (base : Int) : Option Nat :=
  match n with
  | none => some 1
  | some n =>
      let onward := match n.kind with
        | .moveAbs | .moveRel => beyond e.dir base (n.targetFrom st base)
        | .jog => dirOfWord n.params.p1 = e.dir && beyond e.dir base (n.targetFrom st base)
        | .dwell | .reference => true
      if !onward then some 2
      else if n.opts.gated && !s.gateOpen n.gate then some 3
      else if !n.kind.moves then some 4
      else none

/-- The claim of a second entry granted, where it is GATED (R58, R128). -/
def State.claimSecond (s : State) (n : Entry) : State := if n.opts.gated then s.grantClaim n else s

/-- The junction speed of a pair, not above `cap` (R80): not above either target speed, and, unless the
successor is a JOG, low enough for the successor to come down to the floor speed within its own length. -/
def Axis.junctionSpeed (a : Axis) (e n : Entry) (cap : Nat) : Nat :=
  let rn := orderRates a.setup n
  let target := n.targetFrom a.setup e.target
  let stopLength := match n.kind with
    | .jog => none
    | .moveAbs | .moveRel | .dwell | .reference => some (target - e.target).natAbs
  rn.junctionCap stopLength (min cap (min (a.targetSpeed e) (a.targetSpeed n)))

/-- The flying decision at the commit point, on an axis that moves with the acceleration `a0` (R57, R59, R80). -/
def State.decideFly (s : State) (ax : AxisIx) (a0 : Int) : State :=
  let a := s.axis ax
  match a.list with
  | [] => s
  | e :: rest =>
      match s.flyFails a.setup e rest.head? e.target, rest with
      | none, n :: more =>
          let s := s.claimSecond n
          let e' := { e with fly := .taken, decided := true }
          let s := s.updAxis ax (fun a => { a with list := e' :: { n with bound := true } :: more })
          s.planHead ax a0 e' (a.junctionSpeed e n (a.targetSpeed e))
      | none, [] => s
      | some r, _ => s.updHead ax (fun e => { e with fly := .declined r, decided := true })

/-- The commit point of a move with FLY has been reached and no decision taken (R57, R85). -/
def Axis.commitReached (a : Axis) : Bool :=
  match a.list.head?, a.prof.plan with
  | some e, some p =>
      a.state = .running && e.kind.positional && e.opts.fly && !e.decided &&
        (match p.commitAt with
         | some c => decide (c ≤ p.moved)
         | none => false)
  | _, _ => false

/-- The flying decision where it is due (R57, R63, R85). -/
def State.decideIfDue (s : State) (ax : AxisIx) (a0 : Int) : State :=
  if (s.axis ax).commitReached then s.decideFly ax a0 else s

/-- A JOG reports its edge: the decel point for it has been reached, or the plan cannot stop on it (R79). -/
def Axis.edgeDecelReached (a : Axis) : Bool :=
  match a.list.head?, a.prof.plan with
  | some e, some p => a.state = .running && e.kind = .jog && decide (p.reportAt ≤ p.moved)
  | _, _ => false

/-- A JOG that reports its edge: STOPPING with cause LIMIT_EDGE, to end LIMITED on the edge (R55, R79). -/
def State.edgeDecelIfDue (s : State) (ax : AxisIx) : State :=
  if (s.axis ax).edgeDecelReached then
    s.updAxis ax (fun a =>
      { a with state := .stopping, stopCause := .limitEdge, rampEnd := .limited,
               prof := { a.prof with phase := .decelerating } })
  else s

/-- A plan of the head with what it may call for at once, as long as the axis still moves with the acceleration
`a0`: the flying decision, or the edge report (R57, R79, R85). -/
def State.planAndDecide (s : State) (ax : AxisIx) (a0 : Int) (e : Entry) (endSpeed : Nat) : State :=
  ((s.planHead ax a0 e endSpeed).decideIfDue ax a0).edgeDecelIfDue ax

/-! ### Replans (R83 to R86, R89) -/

/-- The head replanned from the present speed and the acceleration `a0` (R83). For a bound pair the junction is recomputed; where no
junction speed meets the bounds of R85, the binding is dropped and the move planned to its target. -/
def State.replan (s : State) (ax : AxisIx) (a0 : Int) : State :=
  let a := s.axis ax
  match a.list with
  | [] => s
  | e :: rest =>
      match rest.head? with
      | some n =>
          if n.bound then
            let oldJunction := match a.prof.plan with
              | some p => p.endSpeed
              | none => 0
            let w := a.junctionSpeed e n oldJunction
            if a.setup.floor ≤ w && (orderRates a.setup e).canReach a.prof.speedSq a0
                (distanceTo a.commanded e.target e.dir) w
            then s.planHead ax a0 e w
            else
              let s := s.dropBinding ax
              s.planHead ax a0 { e with fly := .declined 5, decided := true } a.setup.floor
          else s.planAndDecide ax a0 e a.setup.floor
      | none => s.planAndDecide ax a0 e a.setup.floor

/-- A replan asked for by an OVERRIDE or a SET_SPEED: at once, but deferred while a ramp of a SMOOTH order is
under way (R82, R84, R86). -/
def State.replanRequest (s : State) (ax : AxisIx) : State :=
  let a := s.axis ax
  match a.list.head?, a.prof.plan with
  | some e, some p =>
      if e.opts.smooth && p.rampUnderWay then s.updProf ax (fun q => { q with pendingReplan := true })
      else s.replan ax a.prof.accel
  | _, _ => s

/-! ### Starting an order (R50 to R52, R59, R81) -/

/-- The window and range test of a target (R99, R100): the detail of WINDOW_TARGET. -/
def windowFails (st : AxisSetup) (k : MotionKind) (target : Int) : Option Nat :=
  if k = .moveRel && (target < minInt32 || maxInt32 < target) then some 3
  else if st.windowEnable && st.windowHigh < target then some 1
  else if st.windowEnable && target < st.windowLow then some 2
  else none

/-- An order that passed its start checks moves: from standstill with a floor step and its direction set, or
on from the speed of the axis (R76, R81, R91). -/
def State.startMoving (s : State) (ax : AxisIx) (target : Int) (d : Dir) : State :=
  let s := s.updHead ax (fun e => { e with target := target, dir := d })
  let floor := (s.axis ax).setup.floor
  let s := if (s.axis ax).moving then s else s.beginMotion ax d none floor .accelerating
  match s.head? ax with
  | none => s
  | some e => s.planAndDecide ax (s.axis ax).prof.accel e floor

/-- The start checks and the start of a MOVE_ABS or MOVE_REL (R50, R52). -/
def State.startMove (s : State) (ax : AxisIx) (e : Entry) : State :=
  let a := s.axis ax
  let here := a.commanded.toInt
  let target := e.targetFrom a.setup here
  let d := e.dirFrom here target
  if !a.readyActive then s.notReadyFault ax
  else if target ≠ here && a.limitActive d then s.limitFault ax d
  else match windowFails a.setup e.kind target with
    | some detail => s.axisFault ax faultWindowTarget detail a.setup.limitReaction
    | none =>
        if e.kind = .moveAbs && a.setup.requireRef && !a.referenced then
          s.axisFault ax faultNotReferenced 0 a.setup.limitReaction
        else if target = here then s.finishHead ax .completed
        else s.startMoving ax target d

/-- The start checks and the start of a JOG (R50, R52, R101). -/
def State.startJog (s : State) (ax : AxisIx) (e : Entry) : State :=
  let a := s.axis ax
  let d := dirOfWord e.params.p1
  let edge := jogEdge a.setup d
  if !a.readyActive then s.notReadyFault ax
  else if a.limitActive d then s.limitFault ax d
  else if !beyond d a.commanded.toInt edge then s.finishHead ax .limited
  else s.startMoving ax edge d

/-- The head starts: ACTIVE, no fly outcome, its deadline armed, its start checks made (R50, R66). The axis
may be standing, or moving where a bound successor or an ADVANCE's successor starts (R59, R65). -/
def State.startOrder (s : State) (ax : AxisIx) : State :=
  match s.head? ax with
  | none => s
  | some e =>
      let s := s.writeCellState e.cell activeByte
      let e' : Entry :=
        { e with status := .active, bound := false, fly := .none, decided := false, newSpeed := none,
                 elapsed := 0, dwellLeft := if e.kind = .dwell then e.params.p1.toNat else 0,
                 deadlineTimer := if e.opts.deadline then some e.deadline else none }
      let s := s.updHead ax (fun _ => e')
      let s := s.setAxisState ax .running .none
      match e.kind with
      | .moveAbs | .moveRel => s.startMove ax e'
      | .jog => s.startJog ax e'
      | .dwell => if e.params.p1.toNat = 0 then s.finishHead ax .completed else s
      | .reference => s.startReference ax e'

/-- A head that becomes due on an IDLE axis: it starts, or claims its gate and starts or waits (R49, R128). -/
def State.startDue (s : State) (ax : AxisIx) : State :=
  match s.head? ax with
  | none => s
  | some e =>
      if !e.opts.gated then s.startOrder ax
      else if s.gateOpen e.gate then (s.grantClaim e).startOrder ax
      else
        let s := s.updHead ax (fun e => { e with status := .waiting, bound := false })
        let s := s.setAxisState ax .waiting .none
        { s.writeCellState e.cell waitingByte with waiting := s.waiting ++ [(e.gate, ax)] }

/-- Heads started one after another while the axis is IDLE and its list is not empty: the start of the next
head follows the end of the previous order in the same step (3.3, R52). -/
def State.settleGo (ax : AxisIx) : Nat → State → State
  | 0, s => s
  | n + 1, s =>
      if (s.axis ax).state = .idle && !(s.axis ax).list.isEmpty then State.settleGo ax n (s.startDue ax) else s

/-- The axis does not stand in IDLE with a head in its list (3.3). Each start takes an entry off the list or
takes the axis out of IDLE. -/
def State.settle (s : State) (ax : AxisIx) : State := State.settleGo ax ((s.axis ax).list.length + 1) s

/-- A bound successor, or the successor of an ADVANCE, starts: the running order ends, the second entry
becomes head and starts without its gate being examined (R59, R65). -/
def State.startSuccessor (s : State) (ax : AxisIx) (code : EndCode) : State :=
  (s.endHead ax code 0).startOrder ax

/-! ### Openings of gates (R127, R129) -/

/-- The claim of a waiting order is observing. -/
def State.waitsObserving (s : State) (ax : AxisIx) : Bool :=
  match s.head? ax with
  | some e => e.opts.observe
  | none => false

/-- A waiting order released: it leaves the waiting record and starts (R129, R130). Only a WAITING axis has a claim on
record; a record of another, which no run leaves, is dropped. -/
def State.release (s : State) (ax : AxisIx) : State :=
  let s := { s with waiting := s.waiting.filter (fun w => w.2 != ax) }
  if (s.axis ax).state = .waiting then s.startOrder ax else s

/-- The arbitration of an opening (R129): every observing order starts; then the earliest consuming one
starts and the gate closes. A flying decision taken at one of those starts may have closed the gate
meanwhile; then no consuming order is released (log 33). Where released orders ended at their start, the next
heads of their axes claim their gates after that, the observers' axes in record order, then the consumer's
(log 45). -/
def State.arbitrate (s : State) (g : Fin 16) : State :=
  let record := (s.waiting.filter (fun w => w.1 == g)).map (·.2)
  let observers := record.filter (fun ax => s.waitsObserving ax)
  let consumer := record.find? (fun ax => !s.waitsObserving ax)
  let s := observers.foldl (fun s ax => s.release ax) s
  let s := match consumer with
    | some ax => if s.gateOpen g then (s.setGate g false).release ax else s
    | none => s
  (observers ++ consumer.toList).foldl (fun s ax => s.settle ax) s

/-- A gate opened; on a closed gate the arbitration follows (R127, R129). -/
def State.openGate (s : State) (g : Fin 16) : State :=
  if s.gateOpen g then s else (s.setGate g true).arbitrate g

end Sys2Proof.Machine
end

