-- ==== Sys2Proof/Machine/Sequencer.lean ====
section
/-!
DEFINITION. The Axis Sequencer at work: what it does where a pulse has brought the axis (R53 to R57, R79, R84,
R87), the requests STOP_AXIS, HOLD, RESUME, ADVANCE and OVERRIDE, a new speed, module stops and silence
actions (R61 to R65, R70, R82, R86, R171, R184).
-/

namespace Sys2Proof.Machine

/-! ### Arrival -/

/-- A held ramp has come to standstill: HELD, unless it ended on the target or edge and so completed the
order (R54, R62, R87). -/
def State.holdStood (s : State) (ax : AxisIx) (e : Entry) : State :=
  if (s.axis ax).commanded.toInt = e.target then
    s.finishHead ax (if e.kind = .jog then .limited else .completed)
  else (s.stand ax).setAxisState ax .held .none

/-- The axis has made its plan to the end: at standstill the order ends, is HELD or the axis is FAULTED; a
bound pair passes its junction; a phase of a reference run ends (R53 to R55, R59, R62, R87, R137, R145). -/
def State.arrive (s : State) (ax : AxisIx) : State :=
  let a := s.axis ax
  match a.state with
  | .running =>
      match a.list with
      | [] => s
      | e :: rest =>
          match e.kind with
          | .moveAbs | .moveRel =>
              if (rest.head?.map (·.bound)).getD false then s.startSuccessor ax .completed
              else s.finishHead ax .completed
          | .jog => s.finishHead ax .limited
          | .reference => if a.ref.phase = .offset then s.refComplete ax else s.refStood ax e
          | .dwell => s
  | .holding =>
      match a.list.head? with
      | some e => s.holdStood ax e
      | none => s
  | .stopping => if a.stopCause = .fault then s.becomeFaulted ax else s.finishHead ax a.rampEnd
  | .disabled | .idle | .waiting | .held | .faulted => s

/-- Arrival where it is due, and the start of the next head. -/
def State.arriveIfDue (s : State) (ax : AxisIx) : State :=
  if (s.axis ax).planDone then (s.arrive ax).settle ax else s

/-- The pending replan is made at the end of the SMOOTH ramp during which it was asked for, the acceleration having
returned to zero (R84). -/
def State.pendingIfDue (s : State) (ax : AxisIx) : State :=
  let a := s.axis ax
  match a.prof.plan with
  | some p =>
      if a.state = .running && a.prof.pendingReplan && p.betweenRamps then
        (s.updProf ax (fun q => { q with pendingReplan := false })).replan ax 0
      else s
  | none => s

/-- What the sequencer does where a pulse has brought the axis: a pending replan, the flying decision, the
edge report of a JOG, arrival, the index search span (R57, R79, R84, R87, R141). MODEL'S CHOICE (log 49): where
the commit point is the target itself (a peak at the floor speed), the pulse that reaches both takes the flying
decision first; a fly taken so binds the pair, and the arrival then starts the successor (R53, R57 and R59 do not
state the order). A pending replan comes before both (log 30). -/
def State.progress (s : State) (ax : AxisIx) : State :=
  let s := s.pendingIfDue ax
  (((s.decideIfDue ax (s.axis ax).prof.accel).edgeDecelIfDue ax).arriveIfDue ax).indexSpan ax

/-! ### Requests (R39, R61 to R65) -/

/-- The outcome of a control order in its owning block (R39). -/
inductive Carried where
  | done (s : State)
  | refused (code : RefusalCode) (reason : Nat)
  deriving DecidableEq, Repr

/-- NOT_APPLICABLE with a reason (R20). -/
def Carried.notApplicable (reason : Nat) : Carried := .refused .notApplicable reason

/-- A ramp to standstill that ends the order: the axis is STOPPING with a cause, bound by the target or edge
(R54, R64, R70, R87); at the floor speed standstill is reached at once. -/
def State.rampToEnd (s : State) (ax : AxisIx) (e : Entry) (cause : StopCause) (code : EndCode)
    (rates : Rates) : State :=
  let s := s.updAxis ax (fun a => { a with state := .stopping, stopCause := cause, rampEnd := code })
  let s := s.beginStop ax rates (some (distanceTo (s.axis ax).commanded e.target e.dir))
  if (s.axis ax).planDone then s.finishHead ax code else s

/-- The non-head entries flushed where the flush is asked for (R61). -/
def State.flushIf (s : State) (ax : AxisIx) (flush : Bool) : State := if flush then s.flushTail ax else s

/-- A head that ends at once, then, where asked for, the rest of the list flushed; then the next head starts
or waits (R61). -/
def State.endAtOnce (s : State) (ax : AxisIx) (code : EndCode) (flush : Bool) : State :=
  let s := s.finishHead ax code
  (if flush then s.flushAll ax else s).settle ax

/-- STOP_AXIS (R61). Of a move or a REFERENCE the rest of the list is flushed first, also where the head then
ends at once (R148; log 41). -/
def State.stopAxis (s : State) (ax : AxisIx) (flush : Bool) : Carried :=
  let a := s.axis ax
  match a.state, a.list.head? with
  | .waiting, some _ => .done (s.endAtOnce ax .stopped flush)
  | .held, some _ => .done (s.endAtOnce ax .stopped flush)
  | .running, some e =>
      match e.kind with
      | .dwell => .done (s.endAtOnce ax .stopped flush)
      | .reference => .done (((s.flushIf ax flush).stopReference ax e .request false).settle ax)
      | .moveAbs | .moveRel | .jog =>
          .done ((((s.flushIf ax flush).dropBinding ax).rampToEnd ax e .request .stopped
            (stopRates a.setup (some e))).settle ax)
  | .holding, some e =>
      .done ((((s.flushIf ax flush).dropBinding ax).rampToEnd ax e .request .stopped
        (stopRates a.setup (some e))).settle ax)
  | .idle, _ => if flush then .done s else .notApplicable 1
  | .stopping, _ => if flush && a.stopCause ≠ .fault then .done (s.flushTail ax) else .notApplicable 1
  | .disabled, _ | .faulted, _ | .waiting, none | .held, none | .running, none | .holding, none =>
      .notApplicable 1

/-- HOLD (R62). -/
def State.hold (s : State) (ax : AxisIx) : Carried :=
  let a := s.axis ax
  match a.state, a.list.head? with
  | .running, some e =>
      match e.kind with
      | .reference => .notApplicable 4
      | .dwell => .done (s.setAxisState ax .held .none)
      | .moveAbs | .moveRel | .jog =>
          let s := (s.dropBinding ax).setAxisState ax .holding .none
          let s := s.beginStop ax (orderRates a.setup e) (some (distanceTo a.commanded e.target e.dir))
          .done (s.arriveIfDue ax)
  | .holding, _ | .held, _ => .done s
  | .idle, _ | .waiting, _ | .stopping, _ | .faulted, _ | .disabled, _ | .running, none => .notApplicable 1

/-- The start checks of a RESUME from HELD, and the move planned from standstill (R63, R89, R102, R104). -/
def State.resumeHeld (s : State) (ax : AxisIx) (e : Entry) : State :=
  let a := s.axis ax
  let s := s.setAxisState ax .running .none
  if !a.readyActive then s.notReadyFault ax
  else if a.limitActive e.dir then s.limitFault ax e.dir
  else
    let s := s.beginMotion ax e.dir none a.setup.floor .accelerating
    s.planAndDecide ax (s.axis ax).prof.accel { e with decided := false } a.setup.floor

/-- RESUME (R63). -/
def State.resume (s : State) (ax : AxisIx) : Carried :=
  let a := s.axis ax
  match a.state, a.list.head? with
  | .holding, some _ =>
      let s := s.updHead ax (fun e => { e with decided := false })
      .done (((s.setAxisState ax .running .none).replan ax a.prof.accel).arriveIfDue ax)
  | .held, some e =>
      match e.kind with
      | .dwell | .reference => .done (s.setAxisState ax .running .none)
      | .moveAbs | .moveRel | .jog =>
          .done ((s.updHead ax (fun e => { e with decided := false })).resumeHeld ax e)
  | .idle, _ | .waiting, _ | .running, _ | .stopping, _ | .faulted, _ | .disabled, _ | .holding, none
  | .held, none => .notApplicable 1

/-- An ADVANCE on a move or JOG that does not fly (R64). -/
def State.advanceRamp (s : State) (ax : AxisIx) (e : Entry) : State :=
  let a := s.axis ax
  if a.state = .held then s.endAtOnce ax .advanced false
  else (s.rampToEnd ax e .request .advanced (orderRates a.setup e)).settle ax

/-- An ADVANCE on a move or JOG with FLY (R65). -/
def State.advanceFly (s : State) (ax : AxisIx) (e : Entry) (rest : List Entry) : State :=
  let a := s.axis ax
  if (rest.head?.map (·.bound)).getD false then (s.startSuccessor ax .advanced).settle ax
  else if e.decided then s.advanceRamp ax e
  else
    let base := if e.kind = .jog then a.commanded.toInt else e.target
    match s.flyFails a.setup e rest.head? base, rest.head? with
    | none, some n =>
        let s := (s.claimSecond n).updHead ax (fun e => { e with fly := .taken, decided := true })
        (s.startSuccessor ax .advanced).settle ax
    | some r, _ =>
        (s.updHead ax (fun e => { e with fly := .declined r, decided := true })).advanceRamp ax e
    | none, none => s.advanceRamp ax e

/-- ADVANCE (R64, R65). -/
def State.advance (s : State) (ax : AxisIx) : Carried :=
  let a := s.axis ax
  match a.state, a.list with
  | .running, e :: rest | .holding, e :: rest | .held, e :: rest =>
      match e.kind with
      | .reference => .notApplicable 4
      | .dwell => .done (s.endAtOnce ax .advanced false)
      | .moveAbs | .moveRel | .jog =>
          .done (if e.opts.fly then s.advanceFly ax e rest else s.advanceRamp ax e)
  | .idle, _ | .waiting, _ | .stopping, _ | .faulted, _ | .disabled, _ | .running, [] | .holding, []
  | .held, [] => .notApplicable 1

/-- The head is a move or JOG (R82, R86). -/
def Axis.headMoves (a : Axis) : Bool :=
  match a.list.head? with
  | some e => e.kind.moves
  | none => false

/-- A replan asked for, where the axis is RUNNING with a move or JOG (R82, R86). -/
def State.replanIfRunning (s : State) (ax : AxisIx) : State :=
  if (s.axis ax).state = .running && (s.axis ax).headMoves then (s.replanRequest ax).arriveIfDue ax else s

/-- OVERRIDE (R82). -/
def State.setOverride (s : State) (ax : AxisIx) (percent : Nat) : State :=
  (s.updProf ax (fun p => { p with override := percent })).replanIfRunning ax

/-- A SET_SPEED action that applies (R86). -/
def State.newSpeed (s : State) (ax : AxisIx) (speed : Nat) : State :=
  (s.updHead ax (fun e => { e with newSpeed := some speed })).replanIfRunning ax

/-- SET_POSITION (R107): in IDLE or FAULTED both counters are written, else refused. -/
def State.setPosition (s : State) (ax : AxisIx) (cmd fb : Word) : Carried :=
  match (s.axis ax).state with
  | .idle | .faulted => .done ((s.assignPositions ax cmd fb false).addJobs [.check ax .follow])
  | .disabled | .waiting | .running | .holding | .held | .stopping => .notApplicable 2

/-! ### Module stops and silence actions (R70, R171, R184) -/

/-- The stop request of module STOP and of the silence actions on an axis (R70, R171, R184). `abrupt` is the
silence action ABRUPT_STOP. The flushed cells join the return chain before a head that ends at once, as the rows
of R171 have it, but behind a WAITING head (log 41). -/
def State.moduleStopAxis (s : State) (ax : AxisIx) (cause : StopCause) (abrupt : Bool) : State :=
  let a := s.axis ax
  match a.state, a.list.head? with
  | .waiting, some _ => s.endAtOnce ax .stopped true
  | .held, some _ => (s.flushTail ax).finishHead ax .stopped
  | .running, some e | .holding, some e =>
      match e.kind with
      | .dwell => (s.flushTail ax).finishHead ax .stopped
      | .reference => (s.flushTail ax).stopReference ax e cause abrupt
      | .moveAbs | .moveRel | .jog =>
          let s := s.flushTail ax
          if abrupt then s.finishHead ax .stopped
          else s.rampToEnd ax e cause .stopped (stopRates a.setup (some e))
  | .stopping, _ =>
      if a.stopCause = .fault then s
      else
        let s := s.flushTail ax
        if abrupt then s.finishHead ax a.rampEnd else s
  | .disabled, _ | .idle, _ | .faulted, _ | .waiting, none | .held, none | .running, none
  | .holding, none => s

/-- The silence action CONTINUE (R171): a WAITING head ends, every other head goes on, and the rest is
flushed. A binding so dropped leaves the move planned to its target (R60). -/
def State.silenceContinue (s : State) (ax : AxisIx) : State :=
  let a := s.axis ax
  match a.state with
  | .waiting => s.endAtOnce ax .stopped true
  | .running =>
      if (a.list.tail.head?.map (·.bound)).getD false then ((s.flushTail ax).replan ax a.prof.accel).arriveIfDue ax
      else s.flushTail ax
  | .holding | .held => s.flushTail ax
  | .stopping => if a.stopCause = .fault then s else s.flushTail ax
  | .disabled | .idle | .faulted => s

/-- The silence action of an axis (R171). On an axis whose stop cause is SILENCE already RAMP_STOP acts as on
one stopping by REQUEST or LIMIT_EDGE (log 44). -/
def State.silenceAxis (s : State) (ax : AxisIx) : State :=
  match (s.axis ax).setup.silence with
  | .carryOn => s.silenceContinue ax
  | .rampStop =>
      if (s.axis ax).state = .stopping then s.silenceContinue ax else s.moduleStopAxis ax .silence false
  | .abruptStop => s.moduleStopAxis ax .silence true

/-- The axis is at rest (R185). -/
def Axis.atRest (a : Axis) : Bool :=
  match a.state with
  | .idle | .faulted | .disabled => true
  | .waiting | .running | .holding | .held | .stopping => false

/-- Every axis is at rest (R185). -/
def State.allAtRest (s : State) : Bool := allAxes.all (fun ax => (s.axis ax).atRest)

/-- STOPPING passes to STOPPED in the step in which the last axis comes to rest (R185). -/
def State.stopIfAtRest (s : State) : State :=
  if s.modState = .stopping && s.allAtRest then s.enter .stopped else s

end Sys2Proof.Machine
end

