-- ==== Sys2Proof/Machine/Watches.lean ====
section
/-!
DEFINITION. The Watch Unit at work: evaluations, firings and their actions, ends of watches (chapter 6); the
Position Block's checks (R97, R98, R102 to R105); and the taking of reported changes (R122; log 7).
-/

namespace Sys2Proof.Machine

/-! ### The watch table -/

/-- The watch of a cell. -/
def State.watchOf (s : State) (cell : Nat) : Option Watch := s.watches.find? (fun w => w.cell == cell)

/-- The watch of a cell changed. -/
def State.updWatch (s : State) (cell : Nat) (f : Watch → Watch) : State :=
  { s with watches := s.watches.map (fun w => if w.cell == cell then f w else w) }

/-- What the result part of a watch holds: the values of its last firing (R19). -/
def Watch.result (w : Watch) (code : Nat) : Result where
  code       := code
  notApplied := w.lastNA
  fires      := w.fireCount
  cmd        := w.lastCmd
  fb         := w.lastFb
  elapsed    := w.sinceArm

/-- A watch ends: its entry leaves the table, its cell ends and is linked (R120, R123). -/
def State.endWatch (s : State) (w : Watch) (code : EndCode) : State :=
  { s with watches := s.watches.filter (fun x => x.cell != w.cell) }.endCell w.cell (w.result code.code) w.notify

/-- A CANCEL_WATCH (R123). -/
def State.cancelWatch (s : State) (cell : Nat) : Carried :=
  match s.watchOf cell with
  | some w => .done (s.endWatch w .cancelled)
  | none => .notApplicable 3

/-- Every watch ends CANCELLED, in arming order (R125). -/
def State.cancelAll (s : State) : State := s.watches.foldl (fun s w => s.endWatch w .cancelled) s

/-! ### Actions (R121) -/

/-- The head of an axis is of a kind. -/
def Axis.headIs (a : Axis) (p : MotionKind → Bool) : Bool :=
  match a.list.head? with
  | some e => p e.kind
  | none => false

/-- MOVE_ABS, MOVE_REL, JOG or DWELL (R121). -/
def MotionKind.notReference : MotionKind → Bool
  | .moveAbs | .moveRel | .jog | .dwell => true
  | .reference => false

/-- Whether an action applies on the state of its target (R121). -/
def State.actionApplies (s : State) : Action → Bool
  | .openGate _ | .pulseOutput _ _ | .latchOnly => true
  | .advance ax =>
      let a := s.axis ax
      (a.state == .running || a.state == .holding || a.state == .held) && a.headIs MotionKind.notReference
  | .hold ax =>
      let a := s.axis ax
      (a.state == .running && a.headIs MotionKind.notReference) || a.state == .holding || a.state == .held
  | .stop ax =>
      let a := s.axis ax
      a.state == .waiting || a.state == .running || a.state == .holding || a.state == .held
  | .setSpeed ax _ =>
      let a := s.axis ax
      (a.state == .running || a.state == .holding || a.state == .held) && a.headIs MotionKind.moves

/-- The state after a request, the old one where it was refused. -/
def Carried.stateOr : Carried → State → State
  | .done s, _ => s
  | .refused _ _, s => s

/-- A trigger output made active with its timer loaded (R133). -/
def State.pulseTrigger (s : State) (o : Fin 4) (width : Nat) : State :=
  { s with triggers := s.triggers.set o { active := true, timer := some width } }

/-- An action takes its effect at its target (R119, R121). -/
def State.perform (s : State) : Action → State
  | .openGate g => s.openGate g
  | .advance ax => (s.advance ax).stateOr s
  | .hold ax => (s.hold ax).stateOr s
  | .stop ax => (s.stopAxis ax false).stateOr s
  | .setSpeed ax v => s.newSpeed ax v
  | .pulseOutput o w => s.pulseTrigger o w
  | .latchOnly => s

/-! ### Firing (R119, R120) -/

/-- The axis whose positions a firing records: the source axis, or the target axis of an axis action (R19). -/
def Watch.recordedAxis (w : Watch) : Option AxisIx :=
  match w.quantity with
  | .commandedPos ax | .feedbackPos ax | .speed ax | .followingError ax => some ax
  | .eventInput _ | .elapsed =>
      match w.action with
      | .advance ax | .hold ax | .stop ax | .setSpeed ax _ => some ax
      | .openGate _ | .pulseOutput _ _ | .latchOnly => none

/-- Steps 1 and 3 of a firing in the entry (R119). -/
def State.fired (s : State) (w : Watch) : Watch :=
  { w with
    truth := true
    fireCount := countMs w.fireCount
    lastCmd := match w.recordedAxis with
      | some ax => (s.axis ax).commanded
      | none => 0
    lastFb := match w.recordedAxis with
      | some ax => (s.axis ax).feedback
      | none => 0
    lastNA := !s.actionApplies w.action }

/-- The elapsed count returns to 0 and the truth follows it, without firing (R116, R119). -/
def Watch.restart (w : Watch) : Watch :=
  if w.quantity = .elapsed then
    { w with elapsed := 0, truth := w.condition.holds w.threshold (.value 0) }
  else w

/-- A firing, taken whole (R119, R120). MODEL'S CHOICE (log 51): a firing that leaves the watch armed writes the whole
of word 2C Hex, so that beside ACTION_NOT_APPLIED the end code, the reason value and the other flags of the end detail
read 0 again, whatever a controller CPU has written there; R19 names the flag alone, and R119 has the fields written
whole, one word each. -/
def State.fire (s : State) (w : Watch) : State :=
  let w' := s.fired w
  let s1 := (s.updWatch w.cell (fun _ => w')).writeResult w.cell (w'.result 0)
  let s2 := if s.actionApplies w.action then s1.perform w.action else s1
  if w.repeatLeft = 1 then s2.endWatch { w' with repeatLeft := 0 } .firedOut
  else s2.updWatch w.cell (fun x => { x with repeatLeft := x.repeatLeft - 1 }.restart)

/-- An evaluation on a new value of the quantity (R117). -/
def State.evaluate (s : State) (cell : Nat) (x : Sample) : State :=
  match s.watchOf cell with
  | none => s
  | some w =>
      match w.truth, w.condition.holds w.threshold x with
      | false, true => s.fire w
      | true, false => s.updWatch cell (fun w => { w with truth := false })
      | false, false | true, true => s

/-! ### The Position Block's checks (R97) -/

/-- The limit in the direction of travel is exempt: the search limit in the phases that seek it (R103, R146). -/
def Axis.limitExempt (a : Axis) : Bool :=
  match a.ref.phase with
  | .approach => true
  | .creep | .index =>
      match a.list.head? with
      | some e => e.searchesLimit
      | none => false
  | .none | .seekBack | .clear | .clearPulse | .offset | .pause => false

/-- A condition is being checked and holds (R98, R102, R104, R105). -/
def State.condHolds (s : State) (ax : AxisIx) (c : Cond) : Bool :=
  let a := s.axis ax
  match c with
  | .limit => a.moving && a.limitActive a.prof.dir && !a.limitExempt
  | .ready => a.moving && !a.readyActive
  | .alarm => a.state != .disabled && a.alarmActive
  | .follow =>
      (s.modState == .running || s.modState == .silent) && a.state != .disabled
        && decide (0 < a.setup.followLimit) && decide (a.setup.followLimit < a.followMagnitude)

/-- Whether a condition has been found holding (R97). -/
def Conds.has (c : Conds) : Cond → Bool
  | .limit => c.limit
  | .ready => c.ready
  | .alarm => c.alarm
  | .follow => c.follow

/-- The record of a condition changed. -/
def Conds.put (c : Conds) (k : Cond) (b : Bool) : Conds :=
  match k with
  | .limit => { c with limit := b }
  | .ready => { c with ready := b }
  | .alarm => { c with alarm := b }
  | .follow => { c with follow := b }

/-- A condition reported (R98, R102, R104, R105, R138). -/
def State.reportCond (s : State) (ax : AxisIx) : Cond → State
  | .limit =>
      if (s.axis ax).ref.phase = .seekBack then s.seekBackFail ax else s.limitFault ax (s.axis ax).prof.dir
  | .ready => s.notReadyFault ax
  | .alarm => s.axisFault ax faultDriveAlarm 0 .abrupt
  | .follow => s.axisFault ax faultFollowing 0 (s.axis ax).setup.followReaction

/-- A condition judged: reported when it begins to hold while being checked (R97). -/
def State.checkCond (s : State) (ax : AxisIx) (c : Cond) : State :=
  let now := s.condHolds ax c
  let was := (s.axis ax).seen.has c
  let s := s.updAxis ax (fun a => { a with seen := a.seen.put c now })
  if now && !was then s.reportCond ax c else s

/-! ### Taking reported changes (R122; log 7) -/

/-- One reported change taken. An assignment takes its order's end and the next head's start with it, before the
check of the following error that it reports (R98; log 43). -/
def State.runJob (s : State) : Job → State
  | .evalWatch cell _ x => s.evaluate cell x
  | .progress ax => s.progress ax
  | .check ax c => s.checkCond ax c
  | .assign ax => (s.assignReference ax).settle ax

/-- Two reports that are taken in the order in which they were made: two to the same watch or of the same axis
matter (R117); and an assignment of positions with what was reported of them before or after it, so that no
value from before the assignment is judged after the silent update (R118, R142). -/
def Job.keepsOrder : Job → Job → Bool
  | .evalWatch c _ _, .evalWatch d _ _ => c == d
  | .progress a, .progress b => a == b
  | .check a c, .check b d => a == b && c == d
  | .assign a, .assign b => a == b
  | .evalWatch _ q _, .assign a | .assign a, .evalWatch _ q _ => q.assignedOn a
  | .check a c, .assign b | .assign b, .check a c => a == b && c == .follow
  | .evalWatch _ _ _, .progress _ | .evalWatch _ _ _, .check _ _ | .progress _, .evalWatch _ _ _
  | .progress _, .check _ _ | .progress _, .assign _ | .check _ _, .evalWatch _ _ _
  | .check _ _, .progress _ | .assign _, .progress _ => false

/-- The report to be taken for the one in place `i`: the first that must come before it, and so on from there. -/
def earliest (js : List Job) : Nat → Nat → Nat
  | 0, i => i
  | n + 1, i =>
      match js[i]? with
      | none => i
      | some j =>
          let k := (js.take i).findIdx (fun x => x.keepsOrder j)
          if k < i then earliest js n k else i

/-- The report that a pick takes: the one picked, or the first of those that must come before it. -/
def pickJob (pick : Nat) (js : List Job) : Nat := earliest js js.length (pick % js.length)

/-- Reported changes taken one after another, in the order of the picks. -/
def State.drain : Nat → List Nat → State → State
  | 0, _, s => s
  | n + 1, picks, s =>
      let i := pickJob (picks.headD 0) s.agenda
      match s.agenda[i]? with
      | none => s
      | some j => State.drain n picks.tail ({ s with agenda := s.agenda.eraseIdx i }.runJob j)

/-- The position assignments of the axes whose abrupt stop is complete put on the agenda (R142; log 16). -/
def State.assignsDue (s : State) (settle : List AxisIx) : State :=
  s.addJobs ((allAxes.filter (fun ax => settle.contains ax && (s.axis ax).ref.assignDue)).map Job.assign)

/-- What follows every event: reported changes are taken, and STOPPING passes to STOPPED where every axis
has come to rest (R122, R185). -/
def State.finish (s : State) (r : Race) : State :=
  ((s.assignsDue r.settle).drain Config.agendaBound r.picks).stopIfAtRest

/-- An event closed: `t` is what the event itself makes of `s`; what follows it follows, and the COLLECT reads
that fell between two of its linkings have detached the cells linked before them (R154; log 22). -/
def State.close (s : State) (r : Race) (t : State) : State :=
  (t.finish r).collectsInside (s.chain.length + 1) r.collects

end Sys2Proof.Machine
end

