-- ==== Sys2Proof/Machine/Walk.lean ====
section
/-!
DEFINITION. The Post Unit's walk: visits, admission checks, admission, control orders, the last post outcome
(chapter 2; clearing of faults, section 9.4).
-/

namespace Sys2Proof.Machine

/-! ### Clearing faults (R166, R167) -/

/-- An axis-scope CLEAR_FAULT (R166). -/
def State.clearAxisFault (s : State) (ax : AxisIx) : Carried :=
  let a := s.axis ax
  match s.faultEntry (.axis ax) with
  | none => .notApplicable 1
  | some _ =>
      if a.state = .stopping && a.stopCause = .fault then .refused .busy 0
      else if a.alarmActive || (0 < a.setup.followLimit && a.setup.followLimit < a.followMagnitude) then
        .refused .stillPresent 0
      else
        let s := s.removeFault (.axis ax)
        .done (if a.state = .faulted then s.setAxisState ax .idle .none else s)

/-- A module-scope CLEAR_FAULT: it ends SILENT (R167, R172). -/
def State.clearModuleFault (s : State) : Carried :=
  match s.faultEntry .module with
  | none => .notApplicable 1
  | some _ =>
      let s := s.removeFault .module
      .done (if s.modState = .silent then (s.enter .running).loadSupervision else s)

/-! ### Carrying out control orders (R39) -/

/-- A control order delivered to its owning block. -/
def State.carryOut (s : State) (k : ControlKind) (sc : Scope) (p : Params) : Carried :=
  match sc, k with
  | .axis ax, .stopAxis => s.stopAxis ax (p.p1 != 0)
  | .axis ax, .hold => s.hold ax
  | .axis ax, .resume => s.resume ax
  | .axis ax, .advance => s.advance ax
  | .axis ax, .override => .done (s.setOverride ax p.p1.toNat)
  | .axis ax, .setPosition => s.setPosition ax p.p1 p.p2
  | .axis ax, .clearFault => s.clearAxisFault ax
  | .module, .openGate => .done (s.openGate (gateOfNat p.p1.toNat))
  | .module, .closeGate => .done (s.setGate (gateOfNat p.p1.toNat) false)
  | .module, .cancelWatch => s.cancelWatch p.p1.toNat
  | .module, .clearFault => s.clearModuleFault
  | .axis _, .openGate | .axis _, .closeGate | .axis _, .cancelWatch
  | .module, .stopAxis | .module, .hold | .module, .resume | .module, .advance | .module, .override
  | .module, .setPosition => .refused .badScope 0

/-- The result part of a control order that ends DONE (R18). -/
def State.doneResult (s : State) (sc : Scope) : Result where
  code := EndCode.done.code
  cmd  := match sc with
    | .axis ax => (s.axis ax).commanded
    | .module => 0
  fb   := match sc with
    | .axis ax => (s.axis ax).feedback
    | .module => 0

/-! ### Admission checks (R31 to R35) -/

/-- Check 3: the module state permits the class (R32). -/
def moduleCheck (m : ModState) (k : Kind) : Option RefusalCode :=
  match m, k with
  | .running, _ => none
  | .silent, .control _ => none
  | .silent, .motion _ | .silent, .armWatch => some .moduleSilent
  | .stopped, .control .clearFault | .starting, .control .clearFault | .stopping, .control .clearFault => none
  | .stopped, _ | .starting, _ | .stopping, _ | .halted, _ | .powerUp, _ => some .moduleNotRunning

/-- Checks 4 to 6: the scope axis (R33, R34). -/
def State.axisCheck (s : State) (marks : Quad Bool) (k : Kind) : Scope → Option RefusalCode
  | .module => none
  | .axis ax =>
      if (s.axis ax).state = .disabled then some .axisDisabled
      else match k with
        | .motion _ =>
            if (s.axis ax).state = .faulted then some .axisFaulted
            else if marks.get ax then some .priorRefused
            else none
        | .armWatch | .control _ => none

/-- Check 7: parameters, gate number and deadline (R35). -/
def State.paramCheck (s : State) (k : Kind) (sc : Scope) (c : CellWords) : Option Nat :=
  match sc with
  | .axis ax => rangeCheck (s.axis ax).setup.floor (s.axis ax).setup.maxSpeed k c
  | .module => rangeCheck 0 0 k c

/-- Check 8: room in the order list or the watch table (R35). -/
def State.roomCheck (s : State) (k : Kind) (sc : Scope) : Option RefusalCode :=
  match k, sc with
  | .motion _, .axis ax => if Config.listCapacity ≤ (s.axis ax).list.length then some .listFull else none
  | .armWatch, _ => if Config.watchCapacity ≤ s.watches.length then some .tableFull else none
  | .motion _, .module | .control _, _ => none

/-- Checks 3 to 8 of a cell whose kind and scope have passed: the first failure, with its detail (R31). -/
def State.admissionFails (s : State) (marks : Quad Bool) (k : Kind) (sc : Scope) (c : CellWords) :
    Option (RefusalCode × Nat) :=
  match moduleCheck s.modState k with
  | some r => some (r, 0)
  | none =>
    match s.axisCheck marks k sc with
    | some r => some (r, 0)
    | none =>
      match s.paramCheck k sc c with
      | some d => some (.badParam, d)
      | none => (s.roomCheck k sc).map (fun r => (r, 0))

/-! ### The outcome of a visit -/

/-- What a visit decides of an offered cell. -/
inductive Verdict where
  /-- Refused, with the axis whose refused-axis mark it sets (R34, R36). -/
  | refused (code : RefusalCode) (detail : Nat) (mark : Option AxisIx)
  /-- A motion order admitted (R37). -/
  | motion (k : MotionKind) (ax : AxisIx)
  /-- A watch armed (R38). -/
  | watch
  /-- A control order carried out: the state after its effect (R39). -/
  | done (sc : Scope) (after : State)
  deriving DecidableEq, Repr

/-- The refused-axis mark that a refusal by checks 3 to 8 sets (R34). -/
def markOf : Kind → Scope → Option AxisIx
  | .motion _, .axis ax => some ax
  | .motion _, .module | .armWatch, _ | .control _, _ => none

/-- The verdict on an offered cell by the words read from it (R31, R39). -/
def State.verdict (s : State) (marks : Quad Bool) (c : CellWords) : Verdict :=
  match kindOfCode c.kindCode, scopeOfCode c.scopeCode with
  | none, _ => .refused .badKind 0 none
  | some _, none => .refused .badScope 0 none
  | some k, some sc =>
      if !k.permits sc then .refused .badScope 0 none
      else match s.admissionFails marks k sc c with
        | some (r, d) => .refused r d (markOf k sc)
        | none =>
            match k, sc with
            | .motion m, .axis ax => .motion m ax
            | .motion _, .module => .refused .badScope 0 none
            | .armWatch, _ => .watch
            | .control q, sc =>
                match s.carryOut q sc c.params with
                | .done s' => .done sc s'
                | .refused r d => .refused r d none

/-- The result part that a visit writes (R10, R18). -/
def Verdict.result : Verdict → Result
  | .refused code detail _ => { code := code.code, reason := detail }
  | .motion _ _ | .watch => { code := 0 }
  | .done sc s' => s'.doneResult sc

/-- The result part of a newly admitted cell: every field 0, the return link FFFF Hex (R10). -/
def State.writeAdmission (s : State) (n : Nat) : State :=
  (s.writeResult n { code := 0 }).writeReturnLink n noIndex

/-- A motion order admitted: its cell, its entry, and its start where the axis is IDLE (R37, R49). -/
def State.admitMotion (s : State) (n : Nat) (k : MotionKind) (ax : AxisIx) (c : CellWords) : State :=
  let s := ((s.writeAdmission n).writeCellState n admittedByte).setHeld n
  (s.updAxis ax (fun a => { a with list := a.list ++ [entryOf n k c] })).settle ax

/-- The watch that a cell arms, but for its truth (R38, R112). -/
def watchFrom (n : Nat) (c : CellWords) : Watch where
  cell       := n
  quantity   := quantityOf c.params
  condition  := conditionOf c.params
  threshold  := c.params.p4.toInt
  action     := actionOf c.params
  notify     := c.options.notify
  repeatLeft := c.params.repeatCount
  truth      := false

/-- A watch armed: its cell, its truth, its entry (R38, R117). -/
def State.arm (s : State) (n : Nat) (c : CellWords) : State :=
  let w := watchFrom n c
  let s := ((s.writeAdmission n).writeCellState n armedByte).setHeld n
  { s with watches := s.watches ++ [{ w with truth := s.watchHolds w }] }

/-- The walk after a cell that was admitted or carried out. -/
def Walk.countAdmitted (w : Walk) (next : Nat) : Walk := { w with at_ := next, admitted := w.admitted + 1 }

/-- The walk after a cell that was refused. -/
def Walk.countRefused (w : Walk) (next : Nat) (mark : Option AxisIx) : Walk :=
  { w with
    at_ := next
    refused := w.refused + 1
    marks := match mark with
      | some ax => w.marks.set ax true
      | none => w.marks }

/-- A verdict carried through: the cell, its entry, the walk's counts (R36 to R39). -/
def State.applyVerdict (s : State) (w : Walk) (n : Nat) (c : CellWords) : Verdict → State
  | .refused code detail mark =>
      { s.refuseCell n code detail c.options.notify with walk := some (w.countRefused c.postLink mark) }
  | .motion k ax => { s.admitMotion n k ax c with walk := some (w.countAdmitted c.postLink) }
  | .watch => { s.arm n c with walk := some (w.countAdmitted c.postLink) }
  | .done sc s' =>
      { (s'.setHeld n).endCell n (s'.doneResult sc) c.options.notify with
        walk := some (w.countAdmitted c.postLink) }

/-! ### The walk (R25 to R27) -/

/-- A walk ends: its record replaces that of the walk before it (R27). -/
def State.endWalk (s : State) (w : Walk) (reason : EndReason) : State :=
  { s with
    walk := none
    outcome :=
      { head := w.head, admitted := w.admitted, refused := w.refused, reason := reason,
        stopping := w.at_, walkNumber := s.outcome.walkNumber + 1 } }

/-- The reason for which a walk ends at an index, if it does (R26). -/
def State.endsAt (s : State) (n : Nat) : Option EndReason :=
  if n = noIndex then some .endOfChain
  else if Config.cellCount ≤ n then some .badIndex
  else if s.isHeld n || (s.cellWords n).stateByte != offeredByte then some .notOffered
  else none

/-- One visit of the walk in progress, on the words it reads (R6, R26). -/
def State.visit (s : State) (w : Walk) : State :=
  { (match s.endsAt w.at_ with
    | some reason => s.endWalk w reason
    | none =>
        let c := s.cellWords w.at_
        s.applyVerdict w w.at_ c (s.verdict w.marks c)) with
    visitRead := [] }

/-- The oldest head leaves the post queue and its walk begins (R25). -/
def State.beginWalk (s : State) : State :=
  match s.walk, s.postQueue with
  | none, h :: rest => { s with postQueue := rest, walk := some { head := h.toNat, at_ := h.toNat } }
  | none, [] | some _, _ => s

/-! ### A visit that a RESET cuts short (R30) -/

/-- The first words of the result part that a visit writes, in the order R10 gives (R30; log 23). -/
def State.writePartial (s : State) (n : Nat) (r : Result) (count : Nat) : State :=
  let s := s.writeWords ((resultWords n r).take 1 |>.take count)
  let s := if 2 ≤ count then s.writeReturnLink n noIndex else s
  s.writeWords ((resultWords n r).drop 1 |>.take (count - 2))

/-- Exchange memory as a visit under way leaves it when the RESET is taken. Of a control order's visit the
effect on its owning block goes with the RESET: the cells that the effect would have ended, a cancelled watch or
flushed orders, are left unwritten (R30; log 23). -/
def State.abandonVisit (s : State) (count : Nat) : State :=
  match s.walk with
  | none => s
  | some w =>
      match s.endsAt w.at_ with
      | some _ => s
      | none => s.writePartial w.at_ (s.verdict w.marks (s.cellWords w.at_)).result count

end Sys2Proof.Machine
end

