-- ==== Sys2Proof/Machine/ModuleCtl.lean ====
section
/-!
DEFINITION. The Module Controller and the Fault Unit's supervision: CONTROL writes, START and the setup check,
STOP, resets, the self-test, the millisecond, supervision and silence (chapters 9.5 and 10).
-/

namespace Sys2Proof.Machine

/-! ### CONTROL (R174, R175, 11.2) -/

/-- The code of START. -/
def codeStart : Byte := 1
/-- The code of STOP. -/
def codeStop : Byte := 2
/-- The code of RESET. -/
def codeReset : Byte := 3
/-- The code of ACK. -/
def codeAck : Byte := 4
/-- The code of KICK. -/
def codeKick : Byte := 5

/-- ACK and KICK are taken outside POWER_UP and HALTED (R174). -/
def ModState.takesAck : ModState → Bool
  | .powerUp | .halted => false
  | .stopped | .starting | .running | .silent | .stopping => true

/-- The read-back after a CONTROL write (R175). -/
def Readback.next (r : Readback) (code arg : Byte) (o : CtlOutcome) : Readback :=
  { code := code, arg := arg, outcome := o, count := r.count + 1 }

/-- A CONTROL write taken: its read-back, and the supervision timer loaded while RUNNING (R169, R174, R175). -/
def State.noteControl (s : State) (code arg : Byte) (o : CtlOutcome) : State :=
  { s with readback := s.readback.next code arg o }.activity

/-- TAKEN or REFUSED_STATE (R174). -/
def ctlOutcome (taken : Bool) : CtlOutcome := if taken then .taken else .refusedState

/-! ### START and the setup check (R181 to R183) -/

/-- Where the setup block of an axis begins (11.4). -/
def axisBase (ax : AxisIx) : Nat := 0x200 + 0x100 * ax.val

/-- A setup word as the check reads it (R181; log 24). -/
def State.setupWord (s : State) (a : Nat) : Word := s.wordSeen s.setupRead a

/-- Setup field `k` of an axis (11.4). -/
def State.axisField (s : State) (ax : AxisIx) (k : Nat) : Word := s.setupWord (axisBase ax + 4 * (k - 1))

/-- Module setup field 1, the supervision interval (11.3). -/
def State.intervalWord (s : State) : Word := s.setupWord 0x10

/-- The supervision interval is 0 or 10 to 10,000 (R181). -/
def intervalOk (w : Word) : Bool := w == 0 || inRange w 10 10000

/-- The detail of a failure in an axis setup block (R181). -/
def State.axisSetupFailure (s : State) (ax : AxisIx) : Option Nat :=
  (axisBlockCheck (s.axisField ax)).map (fun k => ax.val * 256 + k)

/-- The SETUP detail of the first failing field, none where the check passes (R181). -/
def State.setupFailure (s : State) : Option Nat :=
  if !intervalOk s.intervalWord then some 65281
  else allAxes.findSome? s.axisSetupFailure

/-- Steps 1 to 4 of a START taken (R181). -/
def State.beginStart (s : State) : State :=
  { s.enter .starting with
    clock     := 0
    axes      := s.axes.map (fun a => { a with prof := { a.prof with override := 100 } })
    mask      := Causes.ofBits (s.readWord 0x14).toNat
    setupRead := [] }

/-- The state an axis takes when the setup check passes (R48). -/
def AxisState.afterStart (st : AxisState) (enable : Bool) : AxisState :=
  if !enable then .disabled else if st = .faulted then .faulted else .idle

/-- An axis under the setup that has passed (R48, R91, R95, R98, R182). START is taken with every axis at rest (R174,
R185); an axis that is not, which no START meets, is left as it is. -/
def Axis.startUnder (a : Axis) (new : AxisSetup) : Axis :=
  if !a.atRest then a else
  let st := a.state.afterStart new.enable
  let setup := if new.enable then new else { a.setup with enable := false }
  { a with
    state     := st
    stopCause := if st = .faulted then a.stopCause else .none
    setup     := setup
    prof      := { a.prof with dir := .plus }
    followErr := followErrorOf setup a.commanded a.feedback
    seen      := { a.seen with follow := false, alarm := new.enable && a.seen.alarm } }

/-- The axes under the setups that have passed. -/
def State.startAxes (s : State) : Quad Axis :=
  let f := fun (ax : AxisIx) => (s.axis ax).startUnder (setupOf (s.axisField ax))
  ⟨f 0, f 1, f 2, f 3⟩

/-- The entry of an axis that the new setup disables is removed (R162). -/
def State.keepsEntry (s : State) (e : FaultEntry) : Bool :=
  match e.scope with
  | .axis ax => (setupOf (s.axisField ax)).enable
  | .module => true

/-- The setup check passes: RUNNING, the setup in force, the gates closed, supervision loaded (R182). -/
def State.passSetup (s : State) : State :=
  { s.enter .running with
    axes        := s.startAxes
    faults      := s.faults.filter s.keepsEntry
    gates       := Vector.replicate 16 false
    supInterval := s.intervalWord.toNat
    setupRead   := [] }.loadSupervision

/-- Watches take the following errors recomputed under a new ratio, and checking begins (R98, R105, R111). -/
def State.checkAxes (s : State) (order : List AxisIx) : State :=
  order.foldl (fun s ax => (s.report (.followingError ax) (.value (s.axis ax).followMagnitude)).addChecks ax) s

/-- The setup check fails (R183). -/
def State.failSetup (s : State) (detail : Nat) : State :=
  { s.recordFault .module faultSetup detail noIndex with setupRead := [] }.enter .stopped

/-! ### STOP (R184) -/

/-- The blocks that a module STOP reaches one after another, in an order left open (R184). -/
inductive StopBlock where
  | watchUnit
  | sequencer (axis : AxisIx)
  deriving DecidableEq, Repr

/-- The watch unit ends its watches and closes the gates; a sequencer carries out the stop request (R184). -/
def State.stopBlock (s : State) : StopBlock → State
  | .watchUnit => { s.cancelAll with gates := Vector.replicate 16 false }
  | .sequencer ax => s.moduleStopAxis ax .module false

/-- STOPPING is entered and the STOP request reaches every block, one after another: the cells that one block
ends join the return chain before those of the next (R151, R184; log 47). -/
def State.beginStopping (s : State) (r : Race) : State :=
  let s := { s.enter .stopping with supTimer := none }
  (pickOrder r.blocks [.watchUnit, .sequencer 0, .sequencer 1, .sequencer 2, .sequencer 3]).foldl
    State.stopBlock s

/-! ### Resets (R177, R186) -/

/-- An axis after a reset: everything but the levels of its input pins (R186; log 20). -/
def Axis.afterReset (a : Axis) : Axis := { inputs := a.inputs, encA := a.encA, encB := a.encB }

/-- Exchange memory less the identity words and the three image regions (R177, R186; log 18). -/
def zeroImages (m : List Host.Cell) : List Host.Cell :=
  [(0x0, 0x8), (0x40, 0x200), (0x280, 0x300), (0x380, 0x400), (0x480, 0x500), (0x580, 0x600),
   (0x600, 0x800)].foldl (fun m r => memZero r.1 r.2 m) m

/-- Exchange memory with an extent zeroed (R177, R186). -/
def Extent.clear : Extent → List Host.Cell → List Host.Cell
  | .whole, _ => []
  | .images, m => zeroImages m

/-- The state after a reset, with the exchange memory and read-back it leaves, and the extent of the POWER_UP sequence
that follows (R177, R186). What is outside the module stays: the levels of pins, what waits to be taken, the word last
returned by COLLECT. -/
def State.resetWith (s : State) (extent : Extent) (rb : Readback) : State :=
  { State.reset with
    mem         := extent.clear s.mem
    toClear     := some extent
    readback    := rb
    axes        := s.axes.map Axis.afterReset
    events      := s.events
    collectWord := s.collectWord
    pending     := s.pending
    busWrites   := s.busWrites }

/-- Power-on and the rack reset line (R177, R186). -/
def State.fullReset (s : State) : State := s.resetWith .whole {}

/-- The RESET command (R175, R186). -/
def State.softReset (s : State) (arg : Byte) : State := s.resetWith .images (s.readback.next codeReset arg .taken)

/-- The identity words written (R179, 11.3). -/
def State.writeIdentity (s : State) : State :=
  (s.writeWord 0x00 Config.typeCode).writeWord 0x04 Config.revisions

/-- Steps 2 and 3 of the POWER_UP sequence, where they are still to be made: what has been written since the reset
within the extent is zeroed, and the identity is written (R177, R179). MODEL'S CHOICE (log 17): at which moment of the
sequence they fall is left open; a backplane write marked late comes behind them, and the end of the sequence at the
latest makes them. -/
def State.prepareMemory (s : State) : State :=
  match s.toClear with
  | some extent => { s with mem := extent.clear s.mem, toClear := none }.writeIdentity
  | none => s

/-! ### CONTROL writes whole -/

/-- A CONTROL write of START (R174, R181). -/
def State.takeStart (s : State) (arg : Byte) : State :=
  let ok := s.modState == .stopped
  let s := s.noteControl codeStart arg (ctlOutcome ok)
  if ok then s.beginStart else s

/-- A CONTROL write of STOP (R174, R184). -/
def State.takeStop (s : State) (arg : Byte) (r : Race) : State :=
  let ok := s.modState == .running || s.modState == .silent
  let s := s.noteControl codeStop arg (ctlOutcome ok)
  if ok then s.close r (s.beginStopping r) else s

/-- A CONTROL write of RESET (R174, R186). -/
def State.takeReset (s : State) (arg : Byte) (count : Nat) : State := (s.abandonVisit count).softReset arg

/-- A CONTROL write of ACK (R158, R174). -/
def State.takeAck (s : State) (named : Byte) : State :=
  let ok := s.modState.takesAck
  let s := s.noteControl codeAck named (ctlOutcome ok)
  if ok then { s with causes := s.causes.without (Causes.ofBits named.toNat) } else s

/-- A CONTROL write of KICK (R174). -/
def State.takeKick (s : State) (arg : Byte) : State :=
  s.noteControl codeKick arg (ctlOutcome s.modState.takesAck)

/-- A CONTROL write of any code (R174). -/
def State.controlWrite (s : State) (code arg : Byte) : State :=
  if code = codeStart then s.takeStart arg
  else if code = codeStop then s.takeStop arg {}
  else if code = codeReset then s.takeReset arg 0
  else if code = codeAck then s.takeAck arg
  else if code = codeKick then s.takeKick arg
  else s.noteControl code arg .unknown

/-! ### POST and COLLECT (R22, R23, R153) -/

/-- A write to POST (R22, R23). -/
def State.takePost (s : State) (value : Word) : State :=
  let head := value.extractLsb' 0 16
  if s.modState = .powerUp then s
  else if s.postQueue.length < Config.postCapacity then
    { s with postQueue := s.postQueue ++ [head] }.activity
  else (s.recordFault .module faultPostOverrun head.toNat noIndex).activity

/-- A read of COLLECT: the whole chain is detached (R153). -/
def State.takeCollect (s : State) : State := s.detach s.chain.length

/-! ### The millisecond (R180) -/

/-- The order at the head of a list after a millisecond: its elapsed time and deadline run while it is
ACTIVE, a running DWELL counts down (R18, R56, R66). -/
def Entry.tick (e : Entry) (running : Bool) : Entry :=
  if e.status = .active then
    { e with
      elapsed := countMs e.elapsed
      deadlineTimer := timerTick e.deadlineTimer
      dwellLeft := if running && e.kind = .dwell then e.dwellLeft - 1 else e.dwellLeft }
  else e

/-- An axis after a millisecond (R56, R66, R143, R144). -/
def Axis.tick (a : Axis) : Axis :=
  { a with
    list := match a.list with
      | [] => []
      | e :: es => e.tick (a.state = .running) :: es
    ref := { a.ref with pauseTimer := timerTick a.ref.pauseTimer, clearTimer := timerTick a.ref.clearTimer } }

/-- A watch after a millisecond: a rise that makes an ELAPSED condition false is taken here; one that makes
it true is the event ELAPSED_REACHED (R112, R116; log 6). -/
def Watch.tick (w : Watch) : Watch :=
  let w := { w with sinceArm := countMs w.sinceArm }
  if w.quantity = .elapsed then
    let n := countMs w.elapsed
    { w with elapsed := n, truth := w.truth && w.condition.holds w.threshold (.value n) }
  else w

/-- A trigger output after a millisecond (R133). -/
def Trigger.tick (t : Trigger) : Trigger := { t with timer := timerTick t.timer }

/-- A millisecond in every state but POWER_UP (R180). -/
def State.tick (s : State) : State :=
  if s.modState = .powerUp then s
  else
    { s with
      clock    := s.clock + 1
      axes     := s.axes.map Axis.tick
      watches  := s.watches.map Watch.tick
      triggers := s.triggers.map Trigger.tick
      supTimer := if s.modState = .running then timerTick s.supTimer else s.supTimer }

/-! ### Supervision (R170, R171) -/

/-- The supervision timer has run out while RUNNING (R169, R170). -/
def State.supervisionDue (s : State) : Bool := s.modState == .running && s.supTimer == some 0

/-- SILENT is entered, and each axis carries out its silence action, one after another (R170, R171; log 47). -/
def State.goSilent (s : State) (order : List AxisIx) : State :=
  let s := s.recordFault .module faultSupervision 0 noIndex
  order.foldl State.silenceAxis ({ s with supTimer := none }.enter .silent)

end Sys2Proof.Machine
end

