-- ==== Sys2Proof/Machine/Bus.lean ====
section
/-!
DEFINITION. Backplane writes to exchange memory, and a command put in front of the queue.
-/

namespace Sys2Proof.Machine

/-- A word-aligned offset of exchange memory (R188). -/
def wordOffset (a : Nat) : Bool := a % 4 == 0 && decide (a < Config.memSize)

/-- A word that the setup check reads: the module setup, and fields 1 to 21 of each axis block (R181, 11.3,
11.4). -/
def setupField (a : Nat) : Bool :=
  a == 0x10 || a == 0x14 || (0x200 ≤ a && a < 0x600 && decide (a % 0x100 < 84))

/-- The check has passed a word. It reads the module setup, then the axis blocks in ascending order, word by word,
which is the order of the addresses: it has passed every word up to one that it has read (R181). -/
def State.checkPassed (s : State) (a : Nat) : Bool := s.setupRead.any (fun r => a ≤ r.1)

/-- A write during a setup check to a word that the check has read: the word keeps, for the check, what it was.
A late write says that the check has come that far (R181; log 24). -/
def State.shadowSetup (s : State) (b : BusWrite) : State :=
  if s.modState = .starting && setupField b.offset && (b.late || s.checkPassed b.offset) then
    { s with setupRead := s.setupRead ++ [(b.offset, s.setupWord b.offset)] }
  else s

/-- A word that a visit reads of the cell that the walk is at: the header, the links, P1 to P7 and the timing word
(R6, R26, 11.6). -/
def State.inVisit (s : State) (a : Nat) : Bool :=
  match s.walk with
  | some w => cellBase w.at_ ≤ a && a < cellBase w.at_ + 0x2C && a != cellBase w.at_ + 0x08
  | none => false

/-- The visit has passed a word: it has read it, or the word is the header, which comes first, and it has read
another (R26). -/
def State.visitPassed (s : State) (a : Nat) : Bool :=
  s.visitRead.any (fun r => r.1 == a) ||
    match s.walk with
    | some w => a == cellBase w.at_ && !s.visitRead.isEmpty
    | none => false

/-- A write during a visit to a word that the visit has read: the word keeps, for the visit, what it was. A late
write says that the visit has come that far (R6; log 24). -/
def State.shadowVisit (s : State) (b : BusWrite) : State :=
  if s.inVisit b.offset && (b.late || s.visitPassed b.offset) then
    { s with visitRead := s.visitRead ++ [(b.offset, s.visitWord b.offset)] }
  else s

/-- A write during POWER_UP that comes behind the zeroing of memory and the writing of the identity (R177; log 17). -/
def State.prepareBefore (s : State) (b : BusWrite) : State :=
  if s.modState = .powerUp && b.late then s.prepareMemory else s

/-- A backplane write stores all 32 bits as written (R188); at an address that is no word of exchange memory
the model stops (log 3). -/
def busWrite (b : BusWrite) (s : State) : Host.Outcome State Fault Refusal :=
  if wordOffset b.offset then
    .next ((((s.prepareBefore b).shadowSetup b).shadowVisit b).writeWord b.offset b.value)
  else .fault (.noSuchAddress b.offset)

/-- A command put at the front of the queue. -/
def State.pushFront (s : State) (c : Instr) : State := { s with pending := c :: s.pending }

end Sys2Proof.Machine
end

