-- ==== Sys2Proof/Machine/AxisCmds.lean ====
section
/-!
DEFINITION. The meanings of the commands that reach an axis or an event input from outside, and of the output
pulse (R91 to R94, R96, R131).
-/

namespace Sys2Proof.Machine

/-! ### The output pulse (R91, R92) -/

/-- The commanded position after the next pulse, as a number (R93). -/
def Axis.nextCommanded (a : Axis) : Int := a.commanded.toInt + a.prof.dir.sign

/-- The axis emits pulses, and the next one stays within the signed 32-bit range (R93; log 14). -/
def Axis.canPulse (a : Axis) : Bool :=
  a.moving && a.state != .disabled && a.state != .faulted
    && decide (minInt32 ≤ a.nextCommanded) && decide (a.nextCommanded ≤ maxInt32)

/-- The pulse counted along the plan and on its output line (R91). -/
def Axis.countPulse (a : Axis) : Axis :=
  let onB := a.setup.pulseMode = .cwCcw && a.prof.dir = .minus
  { a with prof :=
      { a.prof with
        plan   := a.prof.plan.map (fun p => { p with moved := p.moved + 1 })
        edgesA := if onB then a.prof.edgesA else a.prof.edgesA + 1
        edgesB := if onB then a.prof.edgesB + 1 else a.prof.edgesB } }

/-- A speed within floor speed and max speed, by its square (R72). -/
def clampSq (st : AxisSetup) (sq : Nat) : Nat := max (sqOf st.floor) (min (sqOf st.maxSpeed) sq)

/-- The axis decelerates to standstill by a request, a fault or a phase's ramp-stop (R87, R137). -/
def Axis.rampingDown (a : Axis) : Bool :=
  a.state == .holding || a.state == .stopping || a.ref.rampStop

/-- Speed, acceleration and phase as the plan gives them after the pulses made (R73, R74, R76). -/
def State.followPlan (s : State) (ax : AxisIx) : State :=
  let a := s.axis ax
  match a.prof.plan with
  | none => s
  | some p =>
      s.setSpeed ax (clampSq a.setup (p.sqAt p.moved)) (p.accelAt p.moved)
        (if a.rampingDown then .decelerating else p.phaseAt p.moved)

/-- The leading edge of an output pulse: position, plan and speed, and what follows from the position. -/
def State.pulse (s : State) (ax : AxisIx) : State :=
  let s1 := s.updAxis ax Axis.countPulse
  let s2 := s1.moveCommanded ax (wordOfInt (s.axis ax).nextCommanded)
  ((s2.followPlan ax).addJobs [.progress ax]).addChecks ax

/-- OUTPUT_PULSE (R92, R93). -/
def execOutputPulse (ax : AxisIx) (r : Race) (s : State) : Host.Outcome State Fault Refusal :=
  .next (if (s.axis ax).canPulse then s.close r (s.pulse ax) else s)

/-! ### The encoder (R94) -/

/-- Where a pair of phases stands in a quadrature cycle with A leading B. -/
def quadPlace : Bool → Bool → Nat
  | false, false => 0
  | true, false => 1
  | true, true => 2
  | false, true => 3

/-- The counts of a transition of the encoder inputs (R94; log 28). -/
def encoderCounts (mode : EncMode) (a b a' b' : Bool) : List Int :=
  match mode with
  | .quad4 =>
      match (quadPlace a' b' + 4 - quadPlace a b) % 4 with
      | 1 => [1]
      | 3 => [-1]
      | _ => []
  | .upDown => (if !a && a' then [1] else []) ++ (if !b && b' then [-1] else [])

/-- A counted edge (R94, R95). -/
def State.countEdge (s : State) (ax : AxisIx) (d : Int) : State :=
  s.moveFeedback ax ((s.axis ax).feedback + wordOfInt d)

/-- The encoder inputs take new levels; a DISABLED axis does not count (R94). -/
def State.encoder (s : State) (ax : AxisIx) (a' b' : Bool) : State :=
  let x := s.axis ax
  let s := s.updAxis ax (fun x => { x with encA := a', encB := b' })
  if x.state = .disabled then s
  else ((encoderCounts x.setup.encMode x.encA x.encB a' b').foldl (fun s d => s.countEdge ax d) s).addJobs
    [.check ax .follow]

/-- ENCODER_EDGE (R94). -/
def execEncoderEdge (ax : AxisIx) (a b : Bool) (r : Race) (s : State) : Host.Outcome State Fault Refusal :=
  .next (s.close r (s.encoder ax a b))

/-! ### Axis inputs (R96) -/

/-- New input levels of an axis: a running reference run, then the checks, act on the change; levels that
stay as they are change nothing (R97, R137; log 4). -/
def State.setInputs (s : State) (ax : AxisIx) (i : Inputs) (r : Race) : State :=
  if (s.axis ax).inputs = i then s
  else
    s.close r ((((s.updAxis ax (fun a => { a with inputs := i })).refInput ax).settle ax).addChecks ax)

/-- LIMIT_INPUT_CHANGE (R102). -/
def execLimitInputChange (ax : AxisIx) (side : LimitSide) (level : Bool) (r : Race) (s : State) :
    Host.Outcome State Fault Refusal :=
  let i := (s.axis ax).inputs
  .next (s.setInputs ax (match side with
    | .plus => { i with limitPlus := level }
    | .minus => { i with limitMinus := level }) r)

/-- REFERENCE_SWITCH_CHANGE (R137 to R140). -/
def execReferenceSwitchChange (ax : AxisIx) (level : Bool) (r : Race) (s : State) :
    Host.Outcome State Fault Refusal :=
  .next (s.setInputs ax { (s.axis ax).inputs with reference := level } r)

/-- INDEX_INPUT_CHANGE (R141). -/
def execIndexInputChange (ax : AxisIx) (level : Bool) (r : Race) (s : State) :
    Host.Outcome State Fault Refusal :=
  .next (s.setInputs ax { (s.axis ax).inputs with index := level } r)

/-- DRIVE_READY_CHANGE (R104). -/
def execDriveReadyChange (ax : AxisIx) (level : Bool) (r : Race) (s : State) :
    Host.Outcome State Fault Refusal :=
  .next (s.setInputs ax { (s.axis ax).inputs with ready := level } r)

/-- DRIVE_ALARM_CHANGE (R105). -/
def execDriveAlarmChange (ax : AxisIx) (level : Bool) (r : Race) (s : State) :
    Host.Outcome State Fault Refusal :=
  .next (s.setInputs ax { (s.axis ax).inputs with alarm := level } r)

/-! ### Event inputs (R131) -/

/-- An event input takes a new level, which is reported (R114, R131). -/
def State.setEvent (s : State) (i : Fin 4) (level : Bool) : State :=
  { s with events := s.events.set i level }.report (.eventInput i) (.level level)

/-- EVENT_INPUT_CHANGE (R131, R132). -/
def execEventInputChange (i : Fin 4) (level : Bool) (r : Race) (s : State) :
    Host.Outcome State Fault Refusal :=
  .next (if s.events.get i = level then s else s.close r (s.setEvent i level))

end Sys2Proof.Machine
end

