-- ==== Sys2Proof/Machine/Images.lean ====
section
/-!
DEFINITION. The images that a refresh writes into exchange memory, word by word (R113, R162, R187; 11.3 to
11.5).
-/

namespace Sys2Proof.Machine

/-- Four things in ascending number. -/
def Quad.toList {α : Type} (q : Quad α) : List α := [q.x0, q.x1, q.x2, q.x3]

/-- A number in a word. -/
def wordOfNat (n : Nat) : Word := BitVec.ofNat 32 n

/-! ### Module image (11.3) -/

/-- The words of a place of the watch table display (R113, 11.3). -/
def watchPlace (k : Nat) : Option Watch → List (Nat × Word)
  | some w =>
      [ (0x70 + 8 * k, halves w.cell w.truth.toNat), (0x74 + 8 * k, wordOfNat w.repeatLeft) ]
  | none => [ (0x70 + 8 * k, halves noIndex 0), (0x74 + 8 * k, 0) ]

/-- The watch count and the sixteen places (R113). -/
def State.watchDisplay (s : State) : List (Nat × Word) :=
  (0x6C, wordOfNat s.watches.length) ::
    (List.range Config.watchCapacity).flatMap (fun k => watchPlace k s.watches[k]?)

/-- The words of the module image before the watch display (11.3). -/
def State.moduleWords (s : State) : List (Nat × Word) :=
  [ (0x40, wordOfNat s.modState.code), (0x44, s.clock), (0x48, wordOfNat s.chain.length),
    (0x4C, wordOfNat s.postQueue.length),
    (0x50, halves s.outcome.head s.outcome.walkNumber.toNat),
    (0x54, halves s.outcome.admitted s.outcome.refused),
    (0x58, halves s.outcome.reason.code s.outcome.stopping),
    (0x60, wordOfNat s.causes.bits),
    (0x64, wordOfNat (bitsNat s.events.toList + 256 * bitsNat (s.triggers.toList.map (·.active)))),
    (0x68, wordOfNat (bitsNat s.gates.toList)) ]

/-! ### Axis images (11.4) -/

/-- The active states of the six inputs in the bit order of setup field 16 (R96). -/
def Axis.inputBits (a : Axis) : Nat :=
  bitsNat [a.limitPlusActive, a.limitMinusActive, a.referenceActive, a.indexActive, a.readyActive,
    a.alarmActive]

/-- The words of an axis image at offsets 80 to A0 Hex of its area (11.4). -/
def Axis.imageWords (a : Axis) (base : Nat) : List (Nat × Word) :=
  [ (base + 0x80, bytes4 a.state.code a.stopCause.code a.pendingFault.toNat 0),
    (base + 0x84, bytes4 a.ref.phase.code a.ref.next.code 0 0),
    (base + 0x88, halves a.runningCell (a.list.length + 256 * (Config.listCapacity - a.list.length))),
    (base + 0x8C, a.commanded), (base + 0x90, a.feedback),
    (base + 0x94, wordOfNat (shownSpeed a.prof.speedSq)), (base + 0x98, a.followErr),
    (base + 0x9C, halves a.prof.override a.referenced.toNat),
    (base + 0xA0, wordOfNat (a.inputBits + 256 * a.driveEnable.toNat + 512 * a.ref.clearOut.toNat)) ]

/-- The words of the four axis images. -/
def State.axisWords (s : State) : List (Nat × Word) :=
  allAxes.flatMap (fun ax => (s.axis ax).imageWords (axisBase ax))

/-! ### Annunciation area (11.5) -/

/-- The words of an entry place; an empty place reads 0 in every word (R162, 11.5). -/
def faultPlace (k : Nat) : Option FaultEntry → List (Nat × Word)
  | some e =>
      [ (0x610 + 0x20 * k, halves (e.scope.code + 256 * e.count) e.code),
        (0x614 + 0x20 * k, wordOfNat e.detail), (0x618 + 0x20 * k, halves e.cell e.lastCode),
        (0x61C + 0x20 * k, e.time) ]
  | none =>
      [ (0x610 + 0x20 * k, 0), (0x614 + 0x20 * k, 0), (0x618 + 0x20 * k, 0), (0x61C + 0x20 * k, 0) ]

/-- The number of entries and the five places (R162). -/
def State.faultWords (s : State) : List (Nat × Word) :=
  (0x600, wordOfNat s.faults.length) :: (List.range 5).flatMap (fun k => faultPlace k s.faults[k]?)

/-- Every word that a refresh writes (R187). -/
def State.imageWords (s : State) : List (Nat × Word) :=
  s.moduleWords ++ s.watchDisplay ++ s.axisWords ++ s.faultWords

/-- A refresh, made in every state but POWER_UP (R187). -/
def State.refresh (s : State) : State := if s.modState = .powerUp then s else s.writeWords s.imageWords

end Sys2Proof.Machine
end

