-- ==== Sys2Proof/Machine/ModuleCmds.lean ====
section
/-!
DEFINITION. The meanings of the module's own commands: power, self-test, setup check, module stop, the
millisecond, the image refresh, the supervision expiry (chapters 9.5 and 10).
-/

namespace Sys2Proof.Machine

/-- POWER_ON (R177, R186). -/
def execPowerOn (s : State) : Host.Outcome State Fault Refusal := .next s.fullReset

/-- RACK_RESET_LINE (R186). -/
def execRackResetLine (s : State) : Host.Outcome State Fault Refusal := .next s.fullReset

/-- SELF_TEST_PASS (R177). Outside POWER_UP no sequence runs and nothing changes (R173; log 4). -/
def execSelfTestPass (s : State) : Host.Outcome State Fault Refusal :=
  .next (if s.modState = .powerUp then s.prepareMemory.enter .stopped else s)

/-- SELF_TEST_FAIL (R177). -/
def execSelfTestFail (s : State) : Host.Outcome State Fault Refusal :=
  .next (if s.modState = .powerUp then
      (s.prepareMemory.recordFault .module faultMemoryCheck 0 noIndex).enter .halted
    else s)

/-- SETUP_CHECK_PASS (R182). -/
def execSetupCheckPass (r : Race) (s : State) : Host.Outcome State Fault Refusal :=
  .next (if s.modState = .starting ∧ s.setupFailure = none then
      s.close r (s.passSetup.checkAxes (pickOrder r.blocks allAxes))
    else s)

/-- SETUP_CHECK_FAIL (R183). -/
def execSetupCheckFail (s : State) : Host.Outcome State Fault Refusal :=
  .next (if s.modState = .starting then
      match s.setupFailure with
      | some detail => s.failSetup detail
      | none => s
    else s)

/-- MODULE_STOP_COMPLETE (R185; log 36). -/
def execModuleStopComplete (s : State) : Host.Outcome State Fault Refusal := .next s.stopIfAtRest

/-- MODULE_CLOCK_TICK (R180). -/
def execModuleClockTick (r : Race) (s : State) : Host.Outcome State Fault Refusal :=
  .next (if s.modState = .powerUp then s else s.close r s.tick)

/-- IMAGE_REFRESH (R187). -/
def execImageRefresh (s : State) : Host.Outcome State Fault Refusal := .next s.refresh

/-- SUPERVISION_EXPIRY (R170, R171). -/
def execSupervisionExpiry (r : Race) (s : State) : Host.Outcome State Fault Refusal :=
  .next (if s.supervisionDue then s.close r (s.goSilent (pickOrder r.blocks allAxes)) else s)

end Sys2Proof.Machine
end

