-- ==== Sys2Proof/Machine/TimerCmds.lean ====
section
/-!
DEFINITION. The meanings of the commands by which a count or timer runs out (R56, R67, R116, R133, R143, R144).
A command whose count has not run out changes nothing (logs 4 and 5).
-/

namespace Sys2Proof.Machine

/-- The watch of a cell whose elapsed count makes its condition true (R116; log 6). -/
def State.elapsedDue (s : State) (cell : Nat) : Option Watch :=
  match s.watchOf cell with
  | none => none
  | some w =>
      if w.quantity = .elapsed && !w.truth && w.condition.holds w.threshold (.value w.elapsed) then some w
      else none

/-- ELAPSED_REACHED (R116, R119). -/
def execElapsedReached (cell : Nat) (r : Race) (s : State) : Host.Outcome State Fault Refusal :=
  .next (match s.elapsedDue cell with
    | some w => s.close r (s.fire w)
    | none => s)

/-- The head's deadline timer has run out (R66, R67). -/
def Entry.deadlineDue (e : Entry) : Bool := e.status == .active && e.deadlineTimer == some 0

/-- DEADLINE_EXPIRY (R67). -/
def execDeadlineExpiry (ax : AxisIx) (r : Race) (s : State) : Host.Outcome State Fault Refusal :=
  .next (match s.head? ax with
    | some e =>
        if e.deadlineDue then
          s.close r (s.axisFault ax faultOvertime e.cell (s.axis ax).setup.followReaction)
        else s
    | none => s)

/-- A running DWELL has no time left (R56). -/
def Axis.dwellDue (a : Axis) : Bool :=
  match a.list.head? with
  | some e => a.state == .running && e.kind == .dwell && e.dwellLeft == 0
  | none => false

/-- DWELL_END (R56). -/
def execDwellEnd (ax : AxisIx) (r : Race) (s : State) : Host.Outcome State Fault Refusal :=
  .next (if (s.axis ax).dwellDue then s.close r ((s.finishHead ax .completed).settle ax) else s)

/-- The pause of a running reference run is over (R143). -/
def Axis.pauseDue (a : Axis) : Bool :=
  a.state == .running && a.ref.phase == .pause && a.ref.pauseTimer == some 0

/-- PAUSE_EXPIRY (R143). -/
def execPauseExpiry (ax : AxisIx) (r : Race) (s : State) : Host.Outcome State Fault Refusal :=
  .next (match s.head? ax with
    | some e =>
        if (s.axis ax).pauseDue then
          s.close r ((s.beginPhase ax e (s.axis ax).ref.next).settle ax)
        else s
    | none => s)

/-- The clear output becomes inactive; the phase CLEAR_PULSE of a running run ends with it (R144). -/
def State.endClearPulse (s : State) (ax : AxisIx) : State :=
  let s := s.updRef ax (fun r => { r with clearTimer := none, clearOut := false })
  match s.head? ax with
  | some e =>
      if (s.axis ax).state = .running && (s.axis ax).ref.phase = .clearPulse then
        (s.beginOffset ax e).settle ax
      else s
  | none => s

/-- CLEAR_PULSE_EXPIRY (R144). -/
def execClearPulseExpiry (ax : AxisIx) (r : Race) (s : State) : Host.Outcome State Fault Refusal :=
  .next (if (s.axis ax).ref.clearTimer = some 0 then s.close r (s.endClearPulse ax) else s)

/-- TRIGGER_PULSE_EXPIRY (R133). -/
def execTriggerPulseExpiry (o : Fin 4) (s : State) : Host.Outcome State Fault Refusal :=
  .next (if (s.triggers.get o).timer = some 0 then { s with triggers := s.triggers.set o {} } else s)

end Sys2Proof.Machine
end

