-- ==== Sys2Proof/Machine/WalkCmds.lean ====
section
/-!
DEFINITION. The meanings of the Post Unit's commands (R25, R26).
-/

namespace Sys2Proof.Machine

/-- WALK_BEGIN (R25). -/
def execWalkBegin (s : State) : Host.Outcome State Fault Refusal := .next s.beginWalk

/-- CELL_VISIT (R26). -/
def execCellVisit (r : Race) (s : State) : Host.Outcome State Fault Refusal :=
  .next (match s.walk with
    | some w => s.close r (s.visit w)
    | none => s)

end Sys2Proof.Machine
end

