-- ==== Sys2Proof/Machine/WindowCmds.lean ====
section
/-!
DEFINITION. The meanings of the commands of the register window (R22, R153, R158, R174, R188).
-/

namespace Sys2Proof.Machine

/-- POST_WRITE (R22, R23). -/
def execPostWrite (value : Word) (s : State) : Host.Outcome State Fault Refusal := .next (s.takePost value)

/-- COLLECT (R153). -/
def execCollect (s : State) : Host.Outcome State Fault Refusal := .next s.takeCollect

/-- START (R181). -/
def execStart (arg : Byte) (s : State) : Host.Outcome State Fault Refusal := .next (s.takeStart arg)

/-- STOP (R184). -/
def execStop (arg : Byte) (r : Race) (s : State) : Host.Outcome State Fault Refusal := .next (s.takeStop arg r)

/-- RESET (R186). -/
def execReset (arg : Byte) (written : Nat) (s : State) : Host.Outcome State Fault Refusal :=
  .next (s.takeReset arg written)

/-- ACK (R158). -/
def execAck (named : Byte) (s : State) : Host.Outcome State Fault Refusal := .next (s.takeAck named)

/-- KICK (R174). -/
def execKick (arg : Byte) (s : State) : Host.Outcome State Fault Refusal := .next (s.takeKick arg)

/-- UNKNOWN_COMMAND (R174). A code that does name a command is that command's write (log 40). -/
def execUnknownCommand (code arg : Byte) (s : State) : Host.Outcome State Fault Refusal :=
  .next (s.controlWrite code arg)

/-- IGNORED_REGISTER_WRITE (R153, R176, R188). The offsets of POST and CONTROL are not ignored: there the
write is the one of R22 or R174 (log 40). -/
def execIgnoredRegisterWrite (offset : Nat) (value : Word) (s : State) : Host.Outcome State Fault Refusal :=
  .next (if offset = 0x00 then s.takePost value
    else if offset = 0x08 then s.controlWrite (value.extractLsb' 8 8) (value.extractLsb' 0 8)
    else s)

end Sys2Proof.Machine
end

