-- ==== Sys2Proof/Machine/Dispatch.lean ====
section
/-!
DEFINITION. Each command's meaning.
-/

namespace Sys2Proof.Machine

def exec (i : Instr) (s : State) : Host.Outcome State Fault Refusal :=
  match i with
  | .powerOn => Sys2Proof.Machine.execPowerOn s
  | .rackResetLine => Sys2Proof.Machine.execRackResetLine s
  | .selfTestPass => Sys2Proof.Machine.execSelfTestPass s
  | .selfTestFail => Sys2Proof.Machine.execSelfTestFail s
  | .postWrite value => Sys2Proof.Machine.execPostWrite value s
  | .collect => Sys2Proof.Machine.execCollect s
  | .start arg => Sys2Proof.Machine.execStart arg s
  | .stop arg race => Sys2Proof.Machine.execStop arg race s
  | .reset arg written => Sys2Proof.Machine.execReset arg written s
  | .ack causes => Sys2Proof.Machine.execAck causes s
  | .kick arg => Sys2Proof.Machine.execKick arg s
  | .unknownCommand code arg => Sys2Proof.Machine.execUnknownCommand code arg s
  | .ignoredRegisterWrite offset value => Sys2Proof.Machine.execIgnoredRegisterWrite offset value s
  | .setupCheckPass race => Sys2Proof.Machine.execSetupCheckPass race s
  | .setupCheckFail => Sys2Proof.Machine.execSetupCheckFail s
  | .walkBegin => Sys2Proof.Machine.execWalkBegin s
  | .cellVisit race => Sys2Proof.Machine.execCellVisit race s
  | .outputPulse axis race => Sys2Proof.Machine.execOutputPulse axis race s
  | .moduleStopComplete => Sys2Proof.Machine.execModuleStopComplete s
  | .encoderEdge axis a b race => Sys2Proof.Machine.execEncoderEdge axis a b race s
  | .limitInputChange axis side level race => Sys2Proof.Machine.execLimitInputChange axis side level race s
  | .referenceSwitchChange axis level race => Sys2Proof.Machine.execReferenceSwitchChange axis level race s
  | .indexInputChange axis level race => Sys2Proof.Machine.execIndexInputChange axis level race s
  | .driveReadyChange axis level race => Sys2Proof.Machine.execDriveReadyChange axis level race s
  | .driveAlarmChange axis level race => Sys2Proof.Machine.execDriveAlarmChange axis level race s
  | .eventInputChange input level race => Sys2Proof.Machine.execEventInputChange input level race s
  | .moduleClockTick race => Sys2Proof.Machine.execModuleClockTick race s
  | .imageRefresh => Sys2Proof.Machine.execImageRefresh s
  | .elapsedReached cell race => Sys2Proof.Machine.execElapsedReached cell race s
  | .deadlineExpiry axis race => Sys2Proof.Machine.execDeadlineExpiry axis race s
  | .dwellEnd axis race => Sys2Proof.Machine.execDwellEnd axis race s
  | .pauseExpiry axis race => Sys2Proof.Machine.execPauseExpiry axis race s
  | .clearPulseExpiry axis race => Sys2Proof.Machine.execClearPulseExpiry axis race s
  | .triggerPulseExpiry output => Sys2Proof.Machine.execTriggerPulseExpiry output s
  | .supervisionExpiry race => Sys2Proof.Machine.execSupervisionExpiry race s

end Sys2Proof.Machine
end

