-- ==== Sys2Proof/Safety.lean ====
section
/-!
DEFINITION. What statements about the module speak of: outcomes, where a cell is, capacities, and states in
which an event is followed by nothing further.
-/

namespace Sys2Proof.Machine

/-- The bytes of a word. -/
def inWord (base a : Nat) : Prop := base ≤ a ∧ a < base + 4

/-- The cells that the module holds a work of or that await COLLECT: the entries of the four order lists, the
watches, the return chain (R5). -/
def State.cells (s : State) : List Nat :=
  (allAxes.flatMap (fun ax => (s.axis ax).list.map (·.cell))) ++ s.watches.map (·.cell) ++ s.chain

/-- No cell is in two places, and the held marks are those of the cells that are in one (R4, R5). -/
def State.onePlace (s : State) : Prop :=
  s.cells.Nodup ∧ (∀ n ∈ s.cells, n ∈ s.held) ∧ (∀ n ∈ s.held, n ∈ s.cells)

/-- The queue, the table, the lists and the annunciation queue hold no more than they may (R22, R35, R160). -/
def State.withinBounds (s : State) : Prop :=
  s.postQueue.length ≤ Config.postCapacity ∧ s.watches.length ≤ Config.watchCapacity ∧
    (∀ ax ∈ allAxes, (s.axis ax).list.length ≤ Config.listCapacity) ∧ (s.faults.map (·.scope)).Nodup

/-- The following error of an axis is that of its positions under its ratio (R95). -/
def Axis.errOk (a : Axis) : Prop := a.followErr = followErrorOf a.setup a.commanded a.feedback

/-- No reported change waits and no position assignment is due (logs 7 and 16). -/
def State.calm (s : State) : Bool :=
  s.agenda.isEmpty && allAxes.all (fun ax => !(s.axis ax).ref.assignDue)

/-- Nothing follows an event that reports nothing and leaves the axes as they are (R185; log 36). -/
def State.settled (s : State) : Bool := s.calm && !(s.modState == .stopping && s.allAtRest)

/-- Nothing follows an event that reports nothing: the module is not in STOPPING (R185; log 36). -/
def State.quiet (s : State) : Bool := s.calm && s.modState != .stopping

/-- No watch observes a quantity. -/
def State.unwatched (s : State) (q : Quantity) : Bool := s.watches.all (fun w => w.quantity != q)

/-- The supervision timer after controller CPU activity (R169). -/
def State.timerAfterActivity (s : State) : Option Nat :=
  if s.modState = .running then (if s.supInterval = 0 then none else some s.supInterval) else s.supTimer

/-- The axis and the new levels that a change of an axis input names (R96). -/
def inputCommand : Instr → Option (AxisIx × (Inputs → Inputs))
  | .limitInputChange ax .plus level _ => some (ax, fun i => { i with limitPlus := level })
  | .limitInputChange ax .minus level _ => some (ax, fun i => { i with limitMinus := level })
  | .referenceSwitchChange ax level _ => some (ax, fun i => { i with reference := level })
  | .indexInputChange ax level _ => some (ax, fun i => { i with index := level })
  | .driveReadyChange ax level _ => some (ax, fun i => { i with ready := level })
  | .driveAlarmChange ax level _ => some (ax, fun i => { i with alarm := level })
  | .powerOn | .rackResetLine | .selfTestPass | .selfTestFail | .postWrite _ | .collect | .start _
  | .stop _ _ | .reset _ _ | .ack _ | .kick _ | .unknownCommand _ _ | .ignoredRegisterWrite _ _
  | .setupCheckPass _ | .setupCheckFail | .walkBegin | .cellVisit _ | .outputPulse _ _
  | .moduleStopComplete | .encoderEdge _ _ _ _ | .eventInputChange _ _ _ | .moduleClockTick _
  | .imageRefresh | .elapsedReached _ _ | .deadlineExpiry _ _ | .dwellEnd _ _ | .pauseExpiry _ _
  | .clearPulseExpiry _ _ | .triggerPulseExpiry _ | .supervisionExpiry _ => none

/-- What no input, pulse, edge, timer or firing touches: everything but the module state, memory, the chain, the
causes, the faults, the watches, gates, waiting records and triggers, the axes and the agenda. -/
def State.untouchedBut (s t : State) : Prop :=
  t.toClear = s.toClear ∧ t.clock = s.clock ∧ t.readback = s.readback ∧ t.setupRead = s.setupRead ∧ t.visitRead = s.visitRead ∧
    t.supInterval = s.supInterval ∧ t.supTimer = s.supTimer ∧ t.postQueue = s.postQueue ∧ t.walk = s.walk ∧
    t.outcome = s.outcome ∧ t.held = s.held ∧ t.mask = s.mask ∧ t.collectWord = s.collectWord ∧
    t.pending = s.pending ∧ t.busWrites = s.busWrites

/-- The same with the module state, which only the passage from STOPPING to STOPPED changes (R185). -/
def State.untouched (s t : State) : Prop :=
  s.untouchedBut t ∧ (t.modState = s.modState ∨ (s.modState = .stopping ∧ t.modState = .stopped))

/-- The positions and the setup of every axis are as before. -/
def State.samePositions (s t : State) : Prop :=
  ∀ ax : AxisIx, (t.axis ax).commanded = (s.axis ax).commanded ∧ (t.axis ax).feedback = (s.axis ax).feedback ∧
    (t.axis ax).setup = (s.axis ax).setup

/-- The bytes of a result part that a visit writes: the return link, and words 2C to 3C Hex (R10). -/
def inResultPart (n a : Nat) : Prop :=
  (0x800 + 64 * n + 6 ≤ a ∧ a < 0x800 + 64 * n + 8) ∨ (0x800 + 64 * n + 0x2C ≤ a ∧ a < 0x800 + 64 * n + 0x40)

/-- The bytes of a cell that the module writes: the state byte and the result part (R2). -/
def inModulePart (n a : Nat) : Prop := a = 0x800 + 64 * n ∨ inResultPart n a

/-- The bytes that ending, refusing or admitting a cell writes: its state byte and its result part, and the
return link of the cell before it on the chain (R10, R151). -/
def mayWrite (s : State) (n a : Nat) : Prop :=
  a = 0x800 + 64 * n ∨ inResultPart n a ∨
    ∃ tail, s.chain.getLast? = some tail ∧ 0x800 + 64 * tail + 6 ≤ a ∧ a < 0x800 + 64 * tail + 8

/-- The walk is at a cell that it may read: not held, and offered by the header word as the visit reads it
(R6, R26). -/
def State.offeredAt (s : State) (w : Walk) : Prop :=
  s.walk = some w ∧ w.at_ < 480 ∧ w.at_ ∉ s.held ∧ (s.cellWords w.at_).header.extractLsb' 0 8 = 1

/-- The result part of a cell reads as given, and its return link as none (R10). -/
def State.resultReads (s : State) (n : Nat) (code : Word) (fires : Word) (cmd fb elapsed : Word) : Prop :=
  s.readWord (0x800 + 64 * n + 0x2C) = code ∧ s.readWord (0x800 + 64 * n + 0x30) = fires ∧
    s.readWord (0x800 + 64 * n + 0x34) = cmd ∧ s.readWord (0x800 + 64 * n + 0x38) = fb ∧
    s.readWord (0x800 + 64 * n + 0x3C) = elapsed ∧
    s.readByte (0x800 + 64 * n + 6) = 0xFF ∧ s.readByte (0x800 + 64 * n + 7) = 0xFF

/-- A cell reads ENDED with these values in its result part, whatever its return link (R10, 11.6). -/
def State.endReads (s : State) (n : Nat) (code : Word) (fires : Word) (cmd fb elapsed : Word) : Prop :=
  s.readByte (0x800 + 64 * n) = 6 ∧ s.readWord (0x800 + 64 * n + 0x2C) = code ∧
    s.readWord (0x800 + 64 * n + 0x30) = fires ∧ s.readWord (0x800 + 64 * n + 0x34) = cmd ∧
    s.readWord (0x800 + 64 * n + 0x38) = fb ∧ s.readWord (0x800 + 64 * n + 0x3C) = elapsed

/-- An axis stands with an empty list, IDLE, FAULTED or DISABLED (R185). -/
def Axis.standsEmpty (a : Axis) : Prop := a.atRest = true ∧ a.list = [] ∧ a.moving = false

/-- Every axis stands with an empty list, IDLE, FAULTED or DISABLED (R185). -/
def State.standing (s : State) : Prop := ∀ ax : AxisIx, (s.axis ax).standsEmpty

/-- The Position Block finds nothing on an axis that travels in its direction: drive ready active, its limit and
the alarm not, the following error not supervised (R97). -/
def Axis.undisturbed (a : Axis) : Prop :=
  a.readyActive = true ∧ a.limitActive a.prof.dir = false ∧ a.alarmActive = false ∧ a.setup.followLimit = 0

/-- The pulses that remain from a position to the target of an order in its direction. -/
def Entry.remaining (e : Entry) (from_ : Int) : Int := (e.target - from_) * e.dir.sign

/-- A MOVE_ABS or MOVE_REL order passes the window, range and reference checks of its start for a target
(R99, R100, R109). -/
def Axis.allowsTarget (a : Axis) (k : MotionKind) (target : Int) : Prop :=
  -2147483648 ≤ target ∧ target ≤ 2147483647 ∧
    (a.setup.windowEnable = true → a.setup.windowLow ≤ target ∧ target ≤ a.setup.windowHigh) ∧
    (a.setup.requireRef = true → k = .moveAbs → a.referenced = true)

/-- The direction from one position to another (R50). -/
def dirTo (from_ to_ : Int) : Dir := if to_ < from_ then .minus else .plus

/-- An axis is FAULTED, or on its way there on a fault ramp, with an empty list and an entry in the queue
(R69, R163). -/
def State.faultTaken (s : State) (ax : AxisIx) : Prop :=
  ((s.axis ax).state = .faulted ∨
    ((s.axis ax).state = .stopping ∧ (s.axis ax).stopCause = .fault ∧ (s.axis ax).pendingFault = true)) ∧
  (s.axis ax).list = [] ∧ (∃ e ∈ s.faults, e.scope = .axis ax) ∧ s.causes.fault = true

/-- A report to the Fault Unit that is the first of an axis stands at the tail of the queue (R97, R160). -/
def State.reports (s t : State) (ax : AxisIx) (code detail cell : Nat) : Prop :=
  t.faults = s.faults ++ [{ scope := .axis ax, code := code, detail := detail, cell := cell, time := s.clock,
                            count := 1, lastCode := code }] ∧ t.causes.fault = true

/-- No other axis is touched. -/
def State.otherAxes (s t : State) (ax : AxisIx) : Prop := ∀ j, j ≠ ax → t.axis j = s.axis j

/-- The only order of an axis ended at standstill with a code and the position `cmd`: the axis is IDLE with an empty
list, the cell reads ENDED and is linked, with RETURN where it has NOTIFY, and nothing else changed (R18, R45,
R151). -/
def State.endsAlone (s t : State) (ax : AxisIx) (e : Entry) (code : Nat) (cmd : Word) : Prop :=
  (t.axis ax).state = .idle ∧ (t.axis ax).stopCause = .none ∧ (t.axis ax).list = [] ∧ (t.axis ax).moving = false ∧
    t.endReads e.cell (bytes4 code 0 e.fly.bits 0) 0 cmd (s.axis ax).feedback (BitVec.ofNat 32 e.elapsed) ∧
    t.chain = s.chain ++ [e.cell] ∧ t.causes = { s.causes with ret := s.causes.ret || e.opts.notify } ∧
    (∀ b, ¬ mayWrite s e.cell b → t.readByte b = s.readByte b) ∧ s.otherAxes t ax ∧
    t = { s with mem := t.mem, chain := t.chain, causes := t.causes, axes := t.axes }

/-- A LINEAR deceleration to standstill at a rate has begun, bound by a distance; the speed is still that of before
(R73, R87). -/
def Axis.ramps (b a : Axis) (rate bound : Nat) : Prop :=
  b.prof.phase = .decelerating ∧ b.prof.speedSq = a.prof.speedSq ∧ b.commanded = a.commanded ∧
    b.feedback = a.feedback ∧
    ∃ q, b.prof.plan = some q ∧ q.moved = 0 ∧
      q.length = min (linearLen a.prof.speedSq (sqOf a.setup.floor) rate) bound

/-- The axis has room and a rate for a ramp: it is above the floor speed and not at the end of the 32-bit range in
its direction (R87). -/
def Axis.canRamp (a : Axis) (rate : Nat) : Prop :=
  sqOf a.setup.floor < a.prof.speedSq ∧ 0 < rate ∧ 0 < a.rangeBound

/-- What a fault reaction makes of an axis whose order ended: FAULTED at once by the abrupt one; by the ramp one, from
above the floor speed, the LINEAR fault ramp, unbound but by the 32-bit range (R69, R87, R163). -/
def Axis.reacts (b a : Axis) (reaction : Reaction) : Prop :=
  b.list = [] ∧ b.stopCause = .fault ∧
    (reaction = .abrupt → b.state = .faulted ∧ b.moving = false ∧ b.pendingFault = false ∧ b.driveEnable = false) ∧
    (reaction = .ramp → a.canRamp a.setup.stopDecel →
      b.state = .stopping ∧ b.pendingFault = true ∧ b.moving = true ∧ b.ramps a a.setup.stopDecel a.rangeBound)

/-- A standing axis has no speed and no plan (R76, R90). -/
def Axis.standingOk (a : Axis) : Prop := a.moving = false → a.prof.speedSq = 0 ∧ a.prof.plan = none

/-- An entry is bound only as the second of its list, on a RUNNING axis behind a move with FLY whose fly is taken
(R57 to R60). -/
def Axis.bindingOk (a : Axis) : Prop :=
  (∀ e ∈ a.list.head?, e.bound = false ∧ ∀ n ∈ a.list.tail.head?, n.bound = true →
    a.state = .running ∧ e.kind.positional = true ∧ e.opts.fly = true ∧ e.decided = true ∧ e.fly = .taken) ∧
  ∀ x ∈ a.list.tail.tail, x.bound = false

/-! ### Watches -/

/-- The state of its target in which an action applies, by the table of R121. -/
def State.actionDue (s : State) : Action → Prop
  | .openGate _ | .pulseOutput _ _ | .latchOnly => True
  | .advance ax => (s.axis ax).state ∈ [AxisState.running, .holding, .held] ∧
      ∃ e es, (s.axis ax).list = e :: es ∧ e.kind ≠ .reference
  | .hold ax => ((s.axis ax).state = .running ∧ ∃ e es, (s.axis ax).list = e :: es ∧ e.kind ≠ .reference) ∨
      (s.axis ax).state = .holding ∨ (s.axis ax).state = .held
  | .stop ax => (s.axis ax).state ∈ [AxisState.waiting, .running, .holding, .held]
  | .setSpeed ax _ => (s.axis ax).state ∈ [AxisState.running, .holding, .held] ∧
      ∃ e es, (s.axis ax).list = e :: es ∧ e.kind.moves = true

/-- The control order that an axis action stands for (6.4). -/
def asControl : Action → Option (ControlKind × AxisIx)
  | .advance ax => some (.advance, ax)
  | .hold ax => some (.hold, ax)
  | .stop ax => some (.stopAxis, ax)
  | .openGate _ | .setSpeed _ _ | .pulseOutput _ _ | .latchOnly => none

/-- The result part that a firing wrote into a watch's cell; word 2C Hex whole is the model's choice (R19; log 51). -/
def State.firingReads (t : State) (v : Watch) : Prop :=
  t.readWord (0x800 + 64 * v.cell + 0x2C) = bytes4 0 0 (32 * v.lastNA.toNat) 0 ∧
    t.readWord (0x800 + 64 * v.cell + 0x30) = BitVec.ofNat 32 v.fireCount ∧
    t.readWord (0x800 + 64 * v.cell + 0x34) = v.lastCmd ∧ t.readWord (0x800 + 64 * v.cell + 0x38) = v.lastFb ∧
    t.readWord (0x800 + 64 * v.cell + 0x3C) = BitVec.ofNat 32 v.sinceArm

/-! ### What is left open inside a command -/

/-- What the manual leaves open inside a command, of the commands that leave something open. -/
def raceOf : Instr → Option Race
  | .stop _ r | .setupCheckPass r | .cellVisit r | .outputPulse _ r | .encoderEdge _ _ _ r
  | .limitInputChange _ _ _ r | .referenceSwitchChange _ _ r | .indexInputChange _ _ r
  | .driveReadyChange _ _ r | .driveAlarmChange _ _ r | .eventInputChange _ _ r | .moduleClockTick r
  | .elapsedReached _ r | .deadlineExpiry _ r | .dwellEnd _ r | .pauseExpiry _ r | .clearPulseExpiry _ r
  | .supervisionExpiry r => some r
  | .powerOn | .rackResetLine | .selfTestPass | .selfTestFail | .postWrite _ | .collect | .start _
  | .reset _ _ | .ack _ | .kick _ | .unknownCommand _ _ | .ignoredRegisterWrite _ _ | .setupCheckFail
  | .walkBegin | .moduleStopComplete | .imageRefresh | .triggerPulseExpiry _ => none

/-- The same command with other COLLECT reads between its linkings (R154). -/
def withCollects (c : Instr) (ns : List Nat) : Instr :=
  match c with
  | .stop arg r => .stop arg { r with collects := ns }
  | .setupCheckPass r => .setupCheckPass { r with collects := ns }
  | .cellVisit r => .cellVisit { r with collects := ns }
  | .outputPulse ax r => .outputPulse ax { r with collects := ns }
  | .encoderEdge ax a b r => .encoderEdge ax a b { r with collects := ns }
  | .limitInputChange ax sd l r => .limitInputChange ax sd l { r with collects := ns }
  | .referenceSwitchChange ax l r => .referenceSwitchChange ax l { r with collects := ns }
  | .indexInputChange ax l r => .indexInputChange ax l { r with collects := ns }
  | .driveReadyChange ax l r => .driveReadyChange ax l { r with collects := ns }
  | .driveAlarmChange ax l r => .driveAlarmChange ax l { r with collects := ns }
  | .eventInputChange i l r => .eventInputChange i l { r with collects := ns }
  | .moduleClockTick r => .moduleClockTick { r with collects := ns }
  | .elapsedReached n r => .elapsedReached n { r with collects := ns }
  | .deadlineExpiry ax r => .deadlineExpiry ax { r with collects := ns }
  | .dwellEnd ax r => .dwellEnd ax { r with collects := ns }
  | .pauseExpiry ax r => .pauseExpiry ax { r with collects := ns }
  | .clearPulseExpiry ax r => .clearPulseExpiry ax { r with collects := ns }
  | .supervisionExpiry r => .supervisionExpiry { r with collects := ns }
  | .powerOn | .rackResetLine | .selfTestPass | .selfTestFail | .postWrite _ | .collect | .start _
  | .reset _ _ | .ack _ | .kick _ | .unknownCommand _ _ | .ignoredRegisterWrite _ _ | .setupCheckFail
  | .walkBegin | .moduleStopComplete | .imageRefresh | .triggerPulseExpiry _ => c

/-- No COLLECT read falls between two linkings of a command. -/
def uncollected (c : Instr) : Prop := ∀ r, raceOf c = some r → r.collects = []

/-! ### CONTROL (R174) -/

/-- The code and the argument of a CONTROL write (11.2). -/
def controlParts : Instr → Option (Byte × Byte)
  | .start arg => some (1, arg)
  | .stop arg _ => some (2, arg)
  | .reset arg _ => some (3, arg)
  | .ack arg => some (4, arg)
  | .kick arg => some (5, arg)
  | .unknownCommand code arg => some (code, arg)
  | .powerOn | .rackResetLine | .selfTestPass | .selfTestFail | .postWrite _ | .collect
  | .ignoredRegisterWrite _ _ | .setupCheckPass _ | .setupCheckFail | .walkBegin | .cellVisit _
  | .outputPulse _ _ | .moduleStopComplete | .encoderEdge _ _ _ _ | .limitInputChange _ _ _ _
  | .referenceSwitchChange _ _ _ | .indexInputChange _ _ _ | .driveReadyChange _ _ _
  | .driveAlarmChange _ _ _ | .eventInputChange _ _ _ | .moduleClockTick _ | .imageRefresh
  | .elapsedReached _ _ | .deadlineExpiry _ _ | .dwellEnd _ _ | .pauseExpiry _ _
  | .clearPulseExpiry _ _ | .triggerPulseExpiry _ | .supervisionExpiry _ => none

/-- The table of R174: what a command code meets in a module state. -/
def controlTable (code : Byte) (m : ModState) : CtlOutcome :=
  if code = 1 then (if m = .stopped then .taken else .refusedState)
  else if code = 2 then (if m = .running ∨ m = .silent then .taken else .refusedState)
  else if code = 3 then .taken
  else if code = 4 ∨ code = 5 then (if m = .powerUp ∨ m = .halted then .refusedState else .taken)
  else .unknown

/-! ### Resets (R177, R186) -/

/-- A module reset with what lies outside it left as it is: exchange memory, what the POWER_UP sequence has yet to
zero (log 17) and read-back as given, the levels of pins, the word last collected, what waits (R186; logs 20 and 25). -/
def State.resetTo (s : State) (extent : Extent) (mem : List Host.Cell) (rb : Readback) : State :=
  { State.reset with
    mem := mem
    toClear := some extent
    readback := rb
    axes := s.axes.map (fun a => { inputs := a.inputs, encA := a.encA, encB := a.encB })
    events := s.events
    collectWord := s.collectWord
    pending := s.pending
    busWrites := s.busWrites }

/-- The bytes that a RESET command zeroes: the identity words and the three image regions (R177, R186; log 18). -/
def clearedByReset (a : Nat) : Prop :=
  a < 0x8 ∨ (0x40 ≤ a ∧ a < 0x200) ∨ (0x200 ≤ a ∧ a < 0x600 ∧ 0x80 ≤ a % 0x100) ∨ (0x600 ≤ a ∧ a < 0x800)

/-- The bytes that a POWER_UP sequence zeroes (R177). -/
def Extent.covers : Extent → Nat → Prop
  | .whole, _ => True
  | .images, a => clearedByReset a

/-- Steps 2 and 3 of the POWER_UP sequence are made, where they are still to be made: exchange memory reads 0 within
the extent, but for the identity, and as before outside it (R177, R179; log 17). -/
def State.prepared (s t : State) : Prop :=
  t.toClear = none ∧ (s.toClear = none → t.mem = s.mem) ∧
    ∀ x, s.toClear = some x → t.readWord 0x0 = 0x00000A28#32 ∧ t.readWord 0x4 = 0x00030001#32 ∧
      ∀ a, 8 ≤ a → (x.covers a → t.readByte a = 0) ∧ (¬ x.covers a → t.readByte a = s.readByte a)

/-! ### The setup check (R181) -/

/-- Fields 2 to 21 of an axis setup block as the table of R181 judges them. -/
def fieldPasses (f : Nat → Word) : Nat → Prop
  | 2 => (f 2).toNat ≤ 1
  | 3 => (f 3).toNat ≤ 1
  | 4 => 1 ≤ (f 4).toNat ∧ (f 4).toNat ≤ 65535
  | 5 => 1 ≤ (f 5).toNat ∧ (f 5).toNat ≤ 65535
  | 6 => 1 ≤ (f 6).toNat ∧ (f 6).toNat ≤ 10000
  | 7 => (f 6).toNat ≤ (f 7).toNat ∧ (f 7).toNat ≤ 400000
  | 8 => 10 ≤ (f 8).toNat ∧ (f 8).toNat ≤ 20000000
  | 9 => 10 ≤ (f 9).toNat ∧ (f 9).toNat ≤ 20000000
  | 10 => 100 ≤ (f 10).toNat ∧ (f 10).toNat ≤ 2000000000
  | 11 => 10 ≤ (f 11).toNat ∧ (f 11).toNat ≤ 20000000
  | 12 => (f 12).toNat ≤ 1
  | 13 => (f 13).toInt < (f 14).toInt
  | 15 => (f 15).toNat ≤ 2147483647
  | 17 => (f 17).toNat ≤ 1
  | 18 => (f 18).toNat ≤ 1
  | 19 => (f 19).toNat ≤ 2
  | 20 => (f 20).toNat ≤ 1
  | 21 => 1 ≤ (f 21).toNat ∧ (f 21).toNat ≤ 2147483647
  | _ => True

/-- An axis setup block passes: enable 0, or enable 1 and fields 2 to 21 in range (R181). -/
def blockPasses (f : Nat → Word) : Prop :=
  f 1 = 0 ∨ (f 1 = 1 ∧ ∀ k, 2 ≤ k → k ≤ 21 → fieldPasses f k)

/-- Field `k` is the first of a block that fails (R181). -/
def blockFailsAt (f : Nat → Word) (k : Nat) : Prop :=
  (k = 1 ∧ f 1 ≠ 0 ∧ f 1 ≠ 1) ∨
    (f 1 = 1 ∧ 2 ≤ k ∧ k ≤ 21 ∧ ¬ fieldPasses f k ∧ ∀ j, 2 ≤ j → j < k → fieldPasses f j)

/-! ### Walks and visits -/

/-- What a visit decides of the cell it stands at (R31, R39). -/
def State.decides (s : State) (w : Walk) : Verdict := s.verdict w.marks (s.cellWords w.at_)

/-- The module's part of the cell of a visit is written and no other byte (R2, R10). -/
def State.writesOnly (s t : State) (n : Nat) : Prop := ∀ a, ¬ inModulePart n a → t.readByte a = s.readByte a

/-- Cells are held as before, and one more (R4). -/
def State.holdsToo (s t : State) (n : Nat) : Prop := ∀ m, m ∈ t.held ↔ (m ∈ s.held ∨ m = n)

end Sys2Proof.Machine
end

