-- ==== Sys2Proof/WellFormed.lean ====
section
/-!
DEFINITION. Which commands the outside can give: the operands that lie in their rule's range.
-/

namespace Sys2Proof

/-- Whether a command's operands lie in the ranges its rule gives.
An unknown command's code names no command (R174, 11.2); an ignored write goes to COLLECT, to STATUS or
to an aligned offset of 10 Hex or above (R188); a watch stands in a cell 0-479 (R1); a result part has
six items that a visit writes (R10, R30). What is refused here: log 40. -/
def Instr.wellFormed : Instr → Bool
  | .unknownCommand code _ => code == 0 || 5 < code.toNat
  | .ignoredRegisterWrite offset _ =>
      offset % 4 == 0 && (offset == 0x04 || offset == 0x0C || 0x10 ≤ offset)
  | .elapsedReached cell _ => cell < Config.cellCount
  | .reset _ written => written ≤ 6
  | .powerOn | .rackResetLine | .selfTestPass | .selfTestFail | .postWrite _ | .collect | .start _
  | .stop _ _ | .ack _ | .kick _ | .setupCheckPass _ | .setupCheckFail | .walkBegin | .cellVisit _
  | .outputPulse _ _ | .moduleStopComplete | .encoderEdge _ _ _ _ | .limitInputChange _ _ _ _
  | .referenceSwitchChange _ _ _ | .indexInputChange _ _ _ | .driveReadyChange _ _ _
  | .driveAlarmChange _ _ _ | .eventInputChange _ _ _ | .moduleClockTick _ | .imageRefresh
  | .deadlineExpiry _ _ | .dwellEnd _ _ | .pauseExpiry _ _ | .clearPulseExpiry _ _
  | .triggerPulseExpiry _ | .supervisionExpiry _ => true

end Sys2Proof
end

