-- ==== Sys2Proof/Certificates/Slice0/Obligations.lean ====
section
/-!
DEFINITION. The statements for the provers. Chapter and rule stand in each docstring; "log n" is
notes/assumptions/n.md.
-/

open Sys2Proof Sys2Proof.Machine

/-! ### The step -/

/-- A step with a command in front of the queue is that command carried out on the rest. -/
def Obligations.StepRunsFrontCommand : Prop :=
  ∀ (c : Instr) (rest : List Instr) (s : State), s.pending = c :: rest →
    step s = exec c { s with pending := rest }

/-- With no command waiting, a step serves the oldest backplane write: the aligned word is stored whole and
nothing else changes (R188); at an address that is no word of exchange memory the model stops (log 3); with no
write waiting either, it idles (log 2). A setup word that the check in progress has already read keeps for it
the value it had, and a word of the cell being visited that the visit has already read keeps it for the visit; a
word not yet read is read as written (R6, R181). Which words have been read a late write says: the check, which
reads by rising address, has then read that word and every one before it, the visit that word and the header
(R26, R181; log 24). A late write during POWER_UP comes behind the zeroing and the identity, which are made first where
the sequence has not yet made them (R177; log 17). -/
def Obligations.StepWithoutCommand : Prop :=
  ∀ s : State, s.pending = [] →
    (s.busWrites = [] → step s = .next s) ∧
    (∀ b rest, s.busWrites = b :: rest →
      ((b.offset % 4 ≠ 0 ∨ 0x8000 ≤ b.offset) → step s = .fault (.noSuchAddress b.offset)) ∧
      (s.memoryWf = true → b.offset % 4 = 0 → b.offset < 0x8000 →
        -- `u` is the state that the write meets
        ∃ u t, (if s.modState = .powerUp ∧ b.late = true then
            s.prepared u ∧ u = { s with mem := u.mem, toClear := none } else u = s) ∧
          step s = .next t ∧ t.readWord b.offset = b.value ∧
          (∀ a, ¬ inWord b.offset a → t.readByte a = u.readByte a) ∧
          t = { u with
                mem := t.mem, busWrites := rest, setupRead := t.setupRead, visitRead := t.visitRead } ∧
          -- the setup check in progress
          (s.modState = .starting → setupField b.offset = true →
            (b.late = true ∨ (∃ x ∈ s.setupRead, b.offset ≤ x.1) →
              t.setupWord b.offset = s.setupWord b.offset ∧ ∃ x ∈ t.setupRead, x.1 = b.offset) ∧
            (b.late = false → (∀ x ∈ s.setupRead, x.1 < b.offset) → t.setupWord b.offset = b.value)) ∧
          (∀ a, a % 4 = 0 → a ≠ b.offset → t.setupWord a = u.setupWord a) ∧
          (¬ (s.modState = .starting ∧ setupField b.offset = true) ∨
            (b.late = false ∧ ∀ x ∈ s.setupRead, x.1 < b.offset) → t.setupRead = s.setupRead) ∧
          -- the visit in progress
          (∀ w, s.walk = some w → 0x800 + 64 * w.at_ ≤ b.offset → b.offset < 0x800 + 64 * w.at_ + 64 →
            (b.late = true ∨ (b.offset = 0x800 + 64 * w.at_ ∧ s.visitRead ≠ []) →
              t.cellWords w.at_ = u.cellWords w.at_) ∧
            (b.late = false → (∀ x ∈ s.visitRead, x.1 ≠ b.offset) →
              (b.offset = 0x800 + 64 * w.at_ → s.visitRead = []) → t.visitWord b.offset = b.value)) ∧
          ((∀ w, s.walk = some w → ¬ (0x800 + 64 * w.at_ ≤ b.offset ∧ b.offset < 0x800 + 64 * w.at_ + 64)) ∨
            (b.late = false ∧ s.visitRead = []) → t.visitRead = s.visitRead)))

/-- Every command completes from every state: no command of the table stops the model. -/
def Obligations.EveryCommandAnswersNext : Prop := ∀ (c : Instr) (s : State), ∃ t, exec c s = .next t

/-! ### Resets and the self-test (chapter 10) -/

/-- POWER_ON and RACK_RESET_LINE: every register, queue, list and table is at its reset value and the whole of exchange
memory reads 0; pin levels and what waits outside stay (R177, R186; logs 20, 25). RESET in any state: every register
is at its reset value, the read-back names RESET, TAKEN, with the count raised, the identity words and the image
regions read 0, and every other byte is kept, but for the result part of a cell whose visit the RESET cuts short (R30,
R175, R177, R186; logs 18, 23). The POWER_UP sequence has yet to zero its own extent (log 17). -/
def Obligations.ResetsLeave : Prop :=
  (∀ s : State, exec .powerOn s = .next (s.resetTo .whole [] {}) ∧
    exec .rackResetLine s = .next (s.resetTo .whole [] {}) ∧ ∀ a, (s.resetTo .whole [] {}).readByte a = 0) ∧
  (∀ (s : State) (arg : Byte) (written : Nat), ∃ t,
    exec (.reset arg written) s = .next t ∧
    t = s.resetTo .images t.mem { code := 3, arg := arg, outcome := .taken, count := s.readback.count + 1 } ∧
    (∀ a, clearedByReset a → t.readByte a = 0) ∧
    (∀ a, ¬ clearedByReset a → (∀ w, s.offeredAt w → ¬ inResultPart w.at_ a) → t.readByte a = s.readByte a))

/-- The values the manual states for reset (R24, R27, R48, R71, R93 to R95, R109, R126, R129, R133, R134, R150,
R155, R156, R162, R169, R175, R180, R186). -/
def Obligations.ResetStateValues : Prop :=
  State.reset.modState = .powerUp ∧ State.reset.toClear = some .whole ∧ State.reset.clock = 0 ∧
  State.reset.readback = { code := 0, arg := 0, outcome := .none, count := 0 } ∧
  State.reset.supInterval = 0 ∧ State.reset.supTimer = none ∧ State.reset.faults = [] ∧
  State.reset.postQueue = [] ∧ State.reset.walk = none ∧
  State.reset.outcome = ⟨0, 0, 0, .none, 0, 0⟩ ∧ State.reset.held = [] ∧ State.reset.chain = [] ∧
  State.reset.causes = ⟨false, false, false⟩ ∧ State.reset.mask = ⟨false, false, false⟩ ∧
  State.reset.watches = [] ∧ (∀ g : Fin 16, State.reset.gateOpen g = false) ∧ State.reset.waiting = [] ∧
  (∀ o : Fin 4, State.reset.triggers.get o = ⟨false, none⟩) ∧
  (∀ a, State.reset.readByte a = 0) ∧
  ∀ ax : AxisIx,
    (State.reset.axis ax).state = .disabled ∧ (State.reset.axis ax).stopCause = .none ∧
    (State.reset.axis ax).pendingFault = false ∧ (State.reset.axis ax).list = [] ∧
    (State.reset.axis ax).prof.speedSq = 0 ∧ (State.reset.axis ax).prof.accel = 0 ∧
    (State.reset.axis ax).prof.phase = .standing ∧ (State.reset.axis ax).prof.dir = .plus ∧
    (State.reset.axis ax).prof.plan = none ∧ (State.reset.axis ax).prof.pendingReplan = false ∧
    (State.reset.axis ax).prof.override = 100 ∧
    (State.reset.axis ax).commanded = 0 ∧ (State.reset.axis ax).feedback = 0 ∧
    (State.reset.axis ax).followErr = 0 ∧ (State.reset.axis ax).referenced = false ∧
    (State.reset.axis ax).ref.phase = .none ∧ (State.reset.axis ax).ref.pauseTimer = none ∧
    (State.reset.axis ax).ref.clearTimer = none ∧ (State.reset.axis ax).ref.clearOut = false ∧
    (State.reset.axis ax).ref.next = .none ∧ (State.reset.axis ax).ref.switchSeen = false ∧
    (State.reset.axis ax).ref.indexStart = 0 ∧ (State.reset.axis ax).ref.latchedCmd = 0 ∧
    (State.reset.axis ax).ref.latchedFb = 0 ∧
    (State.reset.axis ax).setup.enable = false ∧ (State.reset.axis ax).setup.pulseMode = .pulseDir ∧
    (State.reset.axis ax).setup.encMode = .quad4 ∧ (State.reset.axis ax).setup.ratioNum = 1 ∧
    (State.reset.axis ax).setup.ratioDen = 1 ∧ (State.reset.axis ax).setup.polarity = 0 ∧
    (State.reset.axis ax).setup.followLimit = 0 ∧ (State.reset.axis ax).setup.windowEnable = false ∧
    (State.reset.axis ax).setup.requireRef = false ∧ (State.reset.axis ax).driveEnable = false

/-- The POWER_UP sequence ends: memory is zeroed in the extent of the reset and the identity is written, where the
sequence has not yet done both, and the module is STOPPED, or HALTED with the one entry MEMORY_CHECK; STATE is set, in
HALTED FAULT as well (R177, R179). That a backplane write may fall on either side of the zeroing is the model's choice
(log 17). -/
def Obligations.SelfTestEnds : Prop :=
  ∀ s : State, s.modState = .powerUp → s.memoryWf = true →
    (∃ t, exec .selfTestPass s = .next t ∧
      t = { s with
            mem := t.mem, toClear := none, modState := .stopped, causes := { s.causes with state := true } } ∧
      s.prepared t) ∧
    (s.faults = [] → s.clock = 0 → ∃ t, exec .selfTestFail s = .next t ∧
      t = { s with
            mem := t.mem, toClear := none, modState := .halted
            causes := { s.causes with fault := true, state := true }
            faults := [{ scope := .module, code := 104, detail := 0, cell := 0xFFFF, time := 0, count := 1,
                         lastCode := 104 }] } ∧
      s.prepared t)

/-- Events that are not due change nothing: the model's reading of R173 and of the timers (logs 4, 5, 6, 14). -/
def Obligations.NotDueChangesNothing : Prop :=
  ∀ s : State,
    (s.modState ≠ .powerUp → exec .selfTestPass s = .next s ∧ exec .selfTestFail s = .next s) ∧
    (∀ r, s.modState ≠ .starting ∨ s.setupFailure ≠ none → exec (.setupCheckPass r) s = .next s) ∧
    (s.modState ≠ .starting ∨ s.setupFailure = none → exec .setupCheckFail s = .next s) ∧
    (∀ r, s.walk = none → exec (.cellVisit r) s = .next s) ∧
    (s.modState ≠ .stopping ∨ s.allAtRest = false → exec .moduleStopComplete s = .next s) ∧
    (∀ ax r, (s.axis ax).moving = false ∨ (s.axis ax).state = .disabled ∨ (s.axis ax).state = .faulted ∨
        (s.axis ax).commanded.toInt + (s.axis ax).prof.dir.sign < -2147483648 ∨
        2147483647 < (s.axis ax).commanded.toInt + (s.axis ax).prof.dir.sign →
      exec (.outputPulse ax r) s = .next s) ∧
    (∀ c ax f, inputCommand c = some (ax, f) → f (s.axis ax).inputs = (s.axis ax).inputs → exec c s = .next s) ∧
    (∀ i level r, s.events.get i = level → exec (.eventInputChange i level r) s = .next s) ∧
    (∀ r, s.modState = .powerUp → exec (.moduleClockTick r) s = .next s ∧ exec .imageRefresh s = .next s) ∧
    (∀ cell r, (∀ v, s.watchOf cell = some v → v.quantity ≠ .elapsed ∨ v.truth = true ∨
        v.condition.holds v.threshold (.value v.elapsed) = false) →
      exec (.elapsedReached cell r) s = .next s) ∧
    (∀ ax r, (∀ e, s.head? ax = some e → e.status ≠ .active ∨ e.deadlineTimer ≠ some 0) →
      exec (.deadlineExpiry ax r) s = .next s) ∧
    (∀ ax r, (s.axis ax).state ≠ .running ∨ (∀ e, s.head? ax = some e → e.kind ≠ .dwell ∨ e.dwellLeft ≠ 0) →
      exec (.dwellEnd ax r) s = .next s) ∧
    (∀ ax r, (s.axis ax).state ≠ .running ∨ (s.axis ax).ref.phase ≠ .pause ∨
        (s.axis ax).ref.pauseTimer ≠ some 0 ∨ s.head? ax = none →
      exec (.pauseExpiry ax r) s = .next s) ∧
    (∀ ax r, (s.axis ax).ref.clearTimer ≠ some 0 → exec (.clearPulseExpiry ax r) s = .next s) ∧
    (∀ o, (s.triggers.get o).timer ≠ some 0 → exec (.triggerPulseExpiry o) s = .next s) ∧
    (∀ r, s.modState ≠ .running ∨ s.supTimer ≠ some 0 → exec (.supervisionExpiry r) s = .next s)

/-! ### The register window (chapters 2, 8, 10, 11) -/

/-- A write to POST: discarded in POWER_UP; queued at the tail where fewer than eight heads wait; else an overrun
that is recorded and changes nothing else. A read of POST returns the number of heads, and the module image
shows it (R22, R23). -/
def Obligations.PostWrite : Prop :=
  ∀ (s : State) (v : Word),
    (s.modState = .powerUp → exec (.postWrite v) s = .next s) ∧
    (s.modState ≠ .powerUp → s.postQueue.length < 8 →
      exec (.postWrite v) s =
        .next { s with postQueue := s.postQueue ++ [v.extractLsb' 0 16], supTimer := s.timerAfterActivity }) ∧
    (s.modState ≠ .powerUp → 8 ≤ s.postQueue.length →
      exec (.postWrite v) s =
        .next { s.recordFault .module 102 (v.extractLsb' 0 16).toNat 0xFFFF with supTimer := s.timerAfterActivity }) ∧
    (s.postQueue.length ≤ 8 →
      (s.postReadWord.extractLsb' 0 16).toNat = s.postQueue.length ∧ s.postReadWord.extractLsb' 16 16 = 0) ∧
    (0x4C, BitVec.ofNat 32 s.postQueue.length) ∈ s.imageWords

/-- A read of COLLECT returns the head and the count of the chain, empties the chain and clears the held marks of
its cells; nothing else changes but the supervision timer (R153, R169). A read that falls between two linkings of
one event detaches the cells linked before it: the last of them has the return link FFFF Hex, and the cells linked
after it stand in the new chain in their order. A number of cells that is no such place is no read (R154; log 22). -/
def Obligations.CollectDetachesChain : Prop :=
  (∀ s : State, exec .collect s = .next { s with
    collectWord := BitVec.ofNat 16 s.chain.length ++ BitVec.ofNat 16 (s.chain.headD 0xFFFF)
    held := s.held.filter (fun n => !s.chain.contains n)
    chain := []
    supTimer := s.timerAfterActivity }) ∧
  (∀ (c : Instr) (s t : State) (n : Nat), exec (withCollects c []) s = .next t →
    (raceOf c ≠ none → s.chain.length < n → n < t.chain.length → t.memoryWf = true →
      ∃ u, exec (withCollects c [n]) s = .next u ∧ u.chain = t.chain.drop n ∧
        u.collectWord = BitVec.ofNat 16 n ++ BitVec.ofNat 16 (t.chain.headD 0xFFFF) ∧
        u.held = t.held.filter (fun m => !(t.chain.take n).contains m) ∧
        (∀ m, (t.chain.take n).getLast? = some m →
          (m < 480 → u.returnLink m = 0xFFFF) ∧
          ∀ a, ¬ (0x800 + 64 * m + 6 ≤ a ∧ a < 0x800 + 64 * m + 8) → u.readByte a = t.readByte a) ∧
        u = { t with
              mem := u.mem, collectWord := u.collectWord, held := u.held, chain := u.chain,
              supTimer := t.timerAfterActivity }) ∧
    (n ≤ s.chain.length ∨ t.chain.length ≤ n → exec (withCollects c [n]) s = .next t))

/-- The CONTROL read-back (R175), with the outcome of every command in every state by the table of R174: a
refused or unknown command has no other effect than to load the supervision timer while RUNNING. -/
def Obligations.ControlReadback : Prop :=
  (∀ s : State, s.controlReadWord.extractLsb' 0 8 = s.readback.arg ∧
    s.controlReadWord.extractLsb' 8 8 = s.readback.code ∧
    s.controlReadWord.extractLsb' 16 8 = BitVec.ofNat 8 s.readback.outcome.code ∧
    s.controlReadWord.extractLsb' 24 8 = s.readback.count) ∧
  (CtlOutcome.none.code = 0 ∧ CtlOutcome.taken.code = 1 ∧ CtlOutcome.refusedState.code = 2 ∧
    CtlOutcome.unknown.code = 3) ∧
  (∀ (c : Instr) (code arg : Byte) (s : State), controlParts c = some (code, arg) → c.wellFormed = true →
    s.onePlace → ∃ t, exec c s = .next t ∧
      t.readback = { code := code, arg := arg, outcome := controlTable code s.modState,
                     count := s.readback.count + 1 } ∧
      (controlTable code s.modState ≠ .taken →
        t = { s with readback := t.readback, supTimer := s.timerAfterActivity })) ∧
  (∀ (s t : State) (arg : Byte), exec (.start arg) s = .next t → t.readback.outcome = .taken →
    t.modState = .starting) ∧
  (∀ (s t : State) (arg : Byte) (r : Race), exec (.stop arg r) s = .next t → t.readback.outcome = .taken →
    t.modState = .stopping ∨ t.modState = .stopped) ∧
  (∀ s t : State, exec .powerOn s = .next t ∨ exec .rackResetLine s = .next t → t.controlReadWord = 0) ∧
  (∀ s t : State, exec .selfTestPass s = .next t ∨ exec .selfTestFail s = .next t → t.readback = s.readback)

/-- START taken in STOPPED: STARTING, the module clock 0, every override 100, the enable mask taken from the module setup;
every other item is kept (R71, R156, R180, R181). The setup check passes on a module at rest without watches: RUNNING,
gates closed, supervision loaded, the setup of every enabled axis in force and the axis IDLE, or FAULTED if it was,
the others DISABLED with only their enable changed and their entries removed (R48, R98, R162, R182). The axes enabled
here have no alarm active and no following error beyond the new limit. -/
def Obligations.StartAndSetupCheckPasses : Prop :=
  (∀ (s : State) (arg : Byte), s.modState = .stopped →
    exec (.start arg) s = .next { s with
      readback := { code := 1, arg := arg, outcome := .taken, count := s.readback.count + 1 }
      modState := .starting
      clock := 0
      axes := s.axes.map (fun a => { a with prof := { a.prof with override := 100 } })
      mask := { ret := (s.readWord 0x14).getLsbD 0, fault := (s.readWord 0x14).getLsbD 1,
                state := (s.readWord 0x14).getLsbD 2 }
      setupRead := [] }) ∧
  (∀ (s : State) (r : Race), s.modState = .starting → s.setupFailure = none → s.standing → s.watches = [] →
    s.agenda = [] → (∀ ax, (s.axis ax).ref.assignDue = false) →
    (∀ ax : AxisIx, s.axisField ax 1 ≠ 0 →
      activeState (s.axis ax).inputs.alarm ((s.axisField ax 16).getLsbD 5) = false ∧
      (s.axisField ax 15 = 0 ∨ (followErrorOf (setupOf (s.axisField ax)) (s.axis ax).commanded
        (s.axis ax).feedback).toInt.natAbs ≤ (s.axisField ax 15).toNat)) →
    ∃ t, exec (.setupCheckPass r) s = .next t ∧ t.modState = .running ∧
      (∀ g : Fin 16, t.gateOpen g = false) ∧
      t.supInterval = s.intervalWord.toNat ∧
      t.supTimer = (if s.intervalWord = 0 then none else some s.intervalWord.toNat) ∧
      t.faults = s.faults.filter (fun e =>
        match e.scope with
        | .axis ax => s.axisField ax 1 != 0
        | .module => true) ∧
      t = { s with
            modState := t.modState, gates := t.gates, supInterval := t.supInterval, supTimer := t.supTimer,
            faults := t.faults, axes := t.axes, setupRead := [] } ∧
      ∀ ax : AxisIx,
        (t.axis ax).state = (if s.axisField ax 1 = 0 then .disabled
          else if (s.axis ax).state = .faulted then .faulted else .idle) ∧
        (t.axis ax).setup = (if s.axisField ax 1 = 0 then { (s.axis ax).setup with enable := false }
          else setupOf (s.axisField ax)) ∧
        (t.axis ax).commanded = (s.axis ax).commanded ∧ (t.axis ax).feedback = (s.axis ax).feedback ∧
        (t.axis ax).followErr = followErrorOf (t.axis ax).setup (s.axis ax).commanded (s.axis ax).feedback ∧
        (t.axis ax).referenced = (s.axis ax).referenced ∧ (t.axis ax).inputs = (s.axis ax).inputs ∧
        (t.axis ax).prof = { (s.axis ax).prof with dir := .plus } ∧ (t.axis ax).list = [])

/-- ACK clears the causes its argument names and no others; the line follows. In POWER_UP and HALTED it is refused and
clears nothing (R158). KICK changes nothing but the read-back and the timer (R174). The interrupt request line (R157):
active while a cause is both set and enabled; inactive after the resets, and through the POWER_UP sequence, because
the mask is all disabled. -/
def Obligations.AckKickAndLine : Prop :=
  (∀ (s : State) (arg : Byte),
    (s.modState ≠ .powerUp → s.modState ≠ .halted →
      exec (.ack arg) s = .next { s with
        readback := { code := 4, arg := arg, outcome := .taken, count := s.readback.count + 1 }
        supTimer := s.timerAfterActivity
        causes := { ret := s.causes.ret && !arg.getLsbD 0, fault := s.causes.fault && !arg.getLsbD 1,
                    state := s.causes.state && !arg.getLsbD 2 } } ∧
      exec (.kick arg) s = .next { s with
        readback := { code := 5, arg := arg, outcome := .taken, count := s.readback.count + 1 }
        supTimer := s.timerAfterActivity }) ∧
    (s.modState = .powerUp ∨ s.modState = .halted →
      exec (.ack arg) s = .next { s with
        readback := { code := 4, arg := arg, outcome := .refusedState, count := s.readback.count + 1 } }) ∧
    (∀ t, exec (.ack arg) s = .next t → (t.interruptLine = true ↔
      (t.causes.ret = true ∧ t.mask.ret = true) ∨ (t.causes.fault = true ∧ t.mask.fault = true) ∨
        (t.causes.state = true ∧ t.mask.state = true)))) ∧
  ((∀ s : State, s.interruptLine = true ↔
    (s.causes.ret = true ∧ s.mask.ret = true) ∨ (s.causes.fault = true ∧ s.mask.fault = true) ∨
      (s.causes.state = true ∧ s.mask.state = true)) ∧
  (∀ s t : State, exec .powerOn s = .next t ∨ exec .rackResetLine s = .next t → t.interruptLine = false) ∧
  (∀ (s t : State) (arg : Byte) (n : Nat), exec (.reset arg n) s = .next t → t.interruptLine = false) ∧
  (∀ s t : State, s.modState = .powerUp → s.mask = ⟨false, false, false⟩ →
    exec .selfTestPass s = .next t ∨ exec .selfTestFail s = .next t → t.interruptLine = false))

/-- A read of STATUS (R176): module state, causes, line and the code at the head of the annunciation queue, all
of the moment. A write to STATUS is ignored, as is one to COLLECT or to an offset from 10 Hex on (R153, R188). A
read of the window returns POST, COLLECT, CONTROL and STATUS at 0, 4, 8 and C Hex and 0 at any offset from 10 Hex on
(R188). After the resets STATUS reads 0. -/
def Obligations.StatusAndIgnoredWrites : Prop :=
  (∀ s : State, s.statusWord.extractLsb' 0 8 = BitVec.ofNat 8 s.modState.code ∧
    s.statusWord.getLsbD 8 = s.causes.ret ∧ s.statusWord.getLsbD 9 = s.causes.fault ∧
    s.statusWord.getLsbD 10 = s.causes.state ∧ s.statusWord.getLsbD 11 = s.interruptLine ∧
    (s.faults = [] → s.statusWord.extractLsb' 16 16 = 0) ∧
    (∀ e es, s.faults = e :: es → s.statusWord.extractLsb' 16 16 = BitVec.ofNat 16 e.code)) ∧
  (ModState.powerUp.code = 0 ∧ ModState.stopped.code = 1 ∧ ModState.starting.code = 2 ∧
    ModState.running.code = 3 ∧ ModState.silent.code = 4 ∧ ModState.stopping.code = 5 ∧
    ModState.halted.code = 6) ∧
  (∀ (s : State) (offset : Nat) (v : Word), (Instr.ignoredRegisterWrite offset v).wellFormed = true →
    exec (.ignoredRegisterWrite offset v) s = .next s) ∧
  (∀ s : State, s.windowWord 0x0 = s.postReadWord ∧ s.windowWord 0x8 = s.controlReadWord ∧
    s.windowWord 0xC = s.statusWord ∧ (∀ offset, 0x10 ≤ offset → s.windowWord offset = 0) ∧
    (∀ t, exec .collect s = .next t → t.collectWord = s.windowWord 0x4)) ∧
  (∀ (s t : State) (c : Instr), c = .powerOn ∨ c = .rackResetLine ∨ (∃ arg n, c = .reset arg n) →
    exec c s = .next t → t.statusWord = 0)

/-! ### Module stop, START's setup check (chapter 10) -/

/-- A STOP taken while every axis is at rest passes through STOPPING to STOPPED in the same step: the watches end
CANCELLED in arming order, their cells reading ENDED with end code 7 and the values of the last firing, with RETURN
where a watch has NOTIFY; all gates close, supervision stops, STATE is set, no axis is touched. A STOP that meets one
axis with a LINEAR move above the floor speed leaves the module in STOPPING: the axis is STOPPING with cause MODULE
on a deceleration at the stop decel, bound by the target, to end the order STOPPED, and the orders behind it have
ended FLUSHED in their order. The passage to STOPPED is also the command MODULE_STOP_COMPLETE (R46, R60, R70, R87,
R125, R126, R184, R185; log 36). No COLLECT read falls between the linkings (R154). -/
def Obligations.ModuleStopAtRest : Prop :=
  (∀ (s : State) (arg : Byte) (r : Race), s.modState = .running ∨ s.modState = .silent → r.collects = [] →
    s.standing → s.agenda = [] → (∀ ax, (s.axis ax).ref.assignDue = false) → s.onePlace → s.memoryWf = true →
    ∃ t, exec (.stop arg r) s = .next t ∧ t.modState = .stopped ∧ t.causes.state = true ∧ t.supTimer = none ∧
      t.watches = [] ∧ (∀ g : Fin 16, t.gateOpen g = false) ∧
      (∀ v ∈ s.watches, v.cell < 480 →
        t.endReads v.cell (bytes4 7 0 (32 * v.lastNA.toNat) 0) (BitVec.ofNat 32 v.fireCount) v.lastCmd v.lastFb
          (BitVec.ofNat 32 v.sinceArm)) ∧
      t.causes.ret = (s.causes.ret || s.watches.any (·.notify)) ∧
      (∀ a, t.readByte a ≠ s.readByte a →
        ∃ n, (n ∈ s.watches.map (·.cell) ∨ s.chain.getLast? = some n) ∧ inModulePart n a) ∧
      t.chain = s.chain ++ s.watches.map (·.cell) ∧ t.axes = s.axes ∧
      t.readback = { code := 2, arg := arg, outcome := .taken, count := s.readback.count + 1 } ∧
      t = { s with
            mem := t.mem, modState := t.modState, readback := t.readback, supTimer := t.supTimer,
            chain := t.chain, causes := t.causes, watches := t.watches, gates := t.gates } ∧
      s.causes.fault = t.causes.fault) ∧
  (∀ (s : State) (arg : Byte) (r : Race) (ax : AxisIx) (e : Entry) (es : List Entry),
    s.modState = .running ∨ s.modState = .silent → r.collects = [] → s.watches = [] → s.agenda = [] →
    (∀ j, (s.axis j).ref.assignDue = false) → s.onePlace → s.memoryWf = true →
    (∀ j, j ≠ ax → (s.axis j).standsEmpty) → (s.axis ax).list = e :: es → (∀ n ∈ es, n.status = .admitted) →
    (s.axis ax).state = .running ∨ (s.axis ax).state = .holding → e.kind.moves = true → e.opts.smooth = false →
    sqOf (s.axis ax).setup.floor < (s.axis ax).prof.speedSq → 0 < (s.axis ax).setup.stopDecel →
    (s.axis ax).prof.dir = e.dir → -2147483647 ≤ e.target → e.target ≤ 2147483647 →
    0 < e.remaining (s.axis ax).commanded.toInt →
    ∃ t, exec (.stop arg r) s = .next t ∧ t.modState = .stopping ∧ t.supTimer = none ∧
      (∀ g : Fin 16, t.gateOpen g = false) ∧
      (t.axis ax).state = .stopping ∧ (t.axis ax).stopCause = .module ∧ (t.axis ax).rampEnd = .stopped ∧
      (t.axis ax).list = [if (es.head?.map (·.bound)).getD false then
        { e with fly := .declined 5, decided := true } else e] ∧
      (t.axis ax).prof.phase = .decelerating ∧ (t.axis ax).prof.speedSq = (s.axis ax).prof.speedSq ∧
      (t.axis ax).commanded = (s.axis ax).commanded ∧ (t.axis ax).feedback = (s.axis ax).feedback ∧
      (∃ q, (t.axis ax).prof.plan = some q ∧ q.moved = 0 ∧
        q.length = min (linearLen (s.axis ax).prof.speedSq (sqOf (s.axis ax).setup.floor) (s.axis ax).setup.stopDecel)
          (e.remaining (s.axis ax).commanded.toInt).toNat) ∧
      t.chain = s.chain ++ es.map (·.cell) ∧
      (∀ n ∈ es, n.cell < 480 → t.endReads n.cell 5 0 (s.axis ax).commanded (s.axis ax).feedback 0) ∧
      t.causes.ret = (s.causes.ret || es.any (·.opts.notify)) ∧
      (∀ a, t.readByte a ≠ s.readByte a →
        ∃ n, (n ∈ es.map (·.cell) ∨ s.chain.getLast? = some n) ∧ inModulePart n a) ∧
      (∀ j, j ≠ ax → t.axis j = s.axis j) ∧
      t = { s with
            mem := t.mem, modState := t.modState, readback := t.readback, supTimer := t.supTimer,
            chain := t.chain, causes := t.causes, axes := t.axes, gates := t.gates }) ∧
  (∀ s : State, s.modState = .stopping → s.allAtRest = true →
    exec .moduleStopComplete s = .next { s with modState := .stopped, causes := { s.causes with state := true } })

/-- The setup check fails: SETUP is recorded with the failing field's detail, the module returns to STOPPED with
STATE set, and setup, axes, mask, clock and gates stay (R183). Which field fails, and its detail: the supervision
interval first, then the axis blocks in ascending order, each at its first failing field; the words read are those of
11.3 and 11.4 (R181). -/
def Obligations.SetupCheckFails : Prop :=
  (∀ (s : State) (d : Nat), s.modState = .starting → s.setupFailure = some d →
    exec .setupCheckFail s = .next { s.recordFault .module 101 d 0xFFFF with
      modState := .stopped
      setupRead := []
      causes := { (s.recordFault .module 101 d 0xFFFF).causes with state := true } }) ∧
  (∀ s : State,
    (s.setupRead = [] → s.intervalWord = s.readWord 0x10 ∧
      ∀ (ax : AxisIx) (k : Nat), 1 ≤ k → s.axisField ax k = s.readWord (0x200 + 0x100 * ax.val + 4 * (k - 1))) ∧
    (s.intervalWord ≠ 0 → s.intervalWord.toNat < 10 ∨ 10000 < s.intervalWord.toNat →
      s.setupFailure = some 65281) ∧
    (s.intervalWord = 0 ∨ (10 ≤ s.intervalWord.toNat ∧ s.intervalWord.toNat ≤ 10000) →
      ((∀ ax, blockPasses (s.axisField ax)) → s.setupFailure = none) ∧
      (∀ (ax : AxisIx) (k : Nat), (∀ j : AxisIx, j < ax → blockPasses (s.axisField j)) →
        blockFailsAt (s.axisField ax) k → s.setupFailure = some (ax.val * 256 + k))))

/-! ### Walks (chapter 2) -/

/-- A walk begins with the oldest head when none is in progress, its counts 0 and its marks clear; while one is in
progress, or the queue is empty, none begins (R25). A visit ends the walk at FFFF Hex, at an index that names no cell,
and at a cell that is held or not OFFERED, without touching a cell, and leaves the last post outcome (R26, R27). -/
def Obligations.WalkBeginsAndEnds : Prop :=
  (∀ s : State,
    (∀ h rest, s.walk = none → s.postQueue = h :: rest →
      exec .walkBegin s = .next { s with
        postQueue := rest
        walk := some { head := h.toNat, at_ := h.toNat, admitted := 0, refused := 0,
                       marks := ⟨false, false, false, false⟩ } }) ∧
    (s.walk ≠ none ∨ s.postQueue = [] → exec .walkBegin s = .next s)) ∧
  (∀ (s : State) (w : Walk) (r : Race) (reason : EndReason), s.walk = some w → s.settled = true →
    ((w.at_ = 0xFFFF ∧ reason = .endOfChain) ∨
      (480 ≤ w.at_ ∧ w.at_ ≠ 0xFFFF ∧ reason = .badIndex) ∨
      (w.at_ < 480 ∧ (w.at_ ∈ s.held ∨ (s.cellWords w.at_).header.extractLsb' 0 8 ≠ 1) ∧ reason = .notOffered)) →
    exec (.cellVisit r) s = .next { s with
      visitRead := []
      walk := none
      outcome := { head := w.head, admitted := w.admitted, refused := w.refused, reason := reason,
                   stopping := w.at_, walkNumber := s.outcome.walkNumber + 1 } })

/-- The kinds and the scopes each permits; any other kind is BAD_KIND, any other scope BAD_SCOPE (R11). -/
def Obligations.KindsAndScopes : Prop :=
  (kindOfCode 0x01 = some (.motion .moveAbs) ∧ kindOfCode 0x02 = some (.motion .moveRel) ∧
    kindOfCode 0x03 = some (.motion .jog) ∧ kindOfCode 0x04 = some (.motion .dwell) ∧
    kindOfCode 0x05 = some (.motion .reference) ∧ kindOfCode 0x10 = some .armWatch ∧
    kindOfCode 0x20 = some (.control .stopAxis) ∧ kindOfCode 0x21 = some (.control .hold) ∧
    kindOfCode 0x22 = some (.control .resume) ∧ kindOfCode 0x23 = some (.control .advance) ∧
    kindOfCode 0x24 = some (.control .override) ∧ kindOfCode 0x25 = some (.control .setPosition) ∧
    kindOfCode 0x26 = some (.control .openGate) ∧ kindOfCode 0x27 = some (.control .closeGate) ∧
    kindOfCode 0x28 = some (.control .cancelWatch) ∧ kindOfCode 0x29 = some (.control .clearFault)) ∧
  (∀ k, (kindOfCode k).isSome = true → (1 ≤ k ∧ k ≤ 5) ∨ k = 0x10 ∨ (0x20 ≤ k ∧ k ≤ 0x29)) ∧
  (∀ ax : AxisIx, scopeOfCode ax.val = some (.axis ax)) ∧ scopeOfCode 0xFF = some .module ∧
  (∀ n, (scopeOfCode n).isSome = true → n ≤ 3 ∨ n = 0xFF) ∧
  (∀ (m : MotionKind) (ax : AxisIx),
    (Kind.motion m).permits (.axis ax) = true ∧ (Kind.motion m).permits .module = false) ∧
  (∀ ax : AxisIx, Kind.armWatch.permits (.axis ax) = false) ∧ Kind.armWatch.permits .module = true ∧
  (∀ (q : ControlKind) (ax : AxisIx),
    ((Kind.control q).permits (.axis ax) = true ↔ q ≠ .openGate ∧ q ≠ .closeGate ∧ q ≠ .cancelWatch) ∧
    ((Kind.control q).permits .module = true ↔
      q = .openGate ∨ q = .closeGate ∨ q = .cancelWatch ∨ q = .clearFault)) ∧
  (∀ (s : State) (marks : Quad Bool) (c : CellWords),
    (kindOfCode c.kindCode = none → s.verdict marks c = .refused .badKind 0 none) ∧
    (∀ k, kindOfCode c.kindCode = some k →
      (∀ sc, scopeOfCode c.scopeCode = some sc → k.permits sc = false) →
      s.verdict marks c = .refused .badScope 0 none))

/-- The admission checks in their order, the first failure deciding, with check 3 by the table of R32 (R31 to
R35); a cell that passes all is admitted, armed, or carried out. -/
def Obligations.AdmissionOrder : Prop :=
  ∀ (s : State) (marks : Quad Bool) (c : CellWords) (k : Kind) (sc : Scope),
    kindOfCode c.kindCode = some k → scopeOfCode c.scopeCode = some sc → k.permits sc = true →
    (-- check 3
      (s.modState = .silent → (∀ q, k ≠ .control q) →
        s.verdict marks c = .refused .moduleSilent 0 (markOf k sc)) ∧
      ((s.modState = .stopped ∨ s.modState = .starting ∨ s.modState = .stopping) → k ≠ .control .clearFault →
        s.verdict marks c = .refused .moduleNotRunning 0 (markOf k sc)) ∧
      (s.modState = .halted → s.verdict marks c = .refused .moduleNotRunning 0 (markOf k sc))) ∧
    ((s.modState = .running ∨ (s.modState = .silent ∧ ∃ q, k = .control q) ∨
        ((s.modState = .stopped ∨ s.modState = .starting ∨ s.modState = .stopping) ∧ k = .control .clearFault)) →
      -- check 4
      (∀ ax, sc = .axis ax → (s.axis ax).state = .disabled →
        s.verdict marks c = .refused .axisDisabled 0 (markOf k sc)) ∧
      ((∀ ax, sc = .axis ax → (s.axis ax).state ≠ .disabled) →
        -- checks 5 and 6
        (∀ m ax, k = .motion m → sc = .axis ax → (s.axis ax).state = .faulted →
          s.verdict marks c = .refused .axisFaulted 0 (some ax)) ∧
        (∀ m ax, k = .motion m → sc = .axis ax → (s.axis ax).state ≠ .faulted → marks.get ax = true →
          s.verdict marks c = .refused .priorRefused 0 (some ax)) ∧
        ((∀ m ax, k = .motion m → sc = .axis ax → (s.axis ax).state ≠ .faulted ∧ marks.get ax = false) →
          -- check 7
          (∀ d, s.paramCheck k sc c = some d → s.verdict marks c = .refused .badParam d (markOf k sc)) ∧
          (s.paramCheck k sc c = none →
            -- check 8, and what follows when all are passed
            (∀ m ax, k = .motion m → sc = .axis ax → s.verdict marks c =
              (if 16 ≤ (s.axis ax).list.length then .refused .listFull 0 (some ax) else .motion m ax)) ∧
            (k = .armWatch → s.verdict marks c =
              (if 16 ≤ s.watches.length then .refused .tableFull 0 none else .watch)) ∧
            (∀ q, k = .control q → s.verdict marks c =
              (match s.carryOut q sc c.params with
               | .done s' => .done sc s'
               | .refused code detail => .refused code detail none))))))

/-- The parameters of every kind, then of a motion kind the gate number and the deadline, are judged in order, the
first out of range giving its number: MOVE_ABS, MOVE_REL and JOG; DWELL; REFERENCE; ARM_WATCH, whose ranges hang on
its quantity and its action; the control orders, of which HOLD, RESUME, ADVANCE, SET_POSITION and CLEAR_FAULT use no
parameter that has a range (R12 to R16). Check 7 of a visit is this judgement with the floor speed and the max speed in
force of the scope axis (R12, R35); a cell with module scope has no parameter that they bound. -/
def Obligations.MoveParametersJudged : Prop :=
  (∀ (s : State) (k : Kind) (c : CellWords),
    (∀ ax : AxisIx,
      s.paramCheck k (.axis ax) c = rangeCheck (s.axis ax).setup.floor (s.axis ax).setup.maxSpeed k c) ∧
    (∀ floor top : Nat, (∀ m, k ≠ .motion m) → s.paramCheck k .module c = rangeCheck floor top k c)) ∧
  (∀ (floor top : Nat) (m : MotionKind) (c : CellWords), m = .moveAbs ∨ m = .moveRel ∨ m = .jog →
    (m = .jog → 1 < c.params.p1.toNat → rangeCheck floor top (.motion m) c = some 1) ∧
    ((m = .jog → c.params.p1.toNat ≤ 1) →
      (c.params.p2.toNat < floor ∨ top < c.params.p2.toNat → rangeCheck floor top (.motion m) c = some 2) ∧
      (floor ≤ c.params.p2.toNat → c.params.p2.toNat ≤ top →
        (c.params.p3 ≠ 0 → c.params.p3.toNat < 10 ∨ 20000000 < c.params.p3.toNat →
          rangeCheck floor top (.motion m) c = some 3) ∧
        (c.params.p3 = 0 ∨ (10 ≤ c.params.p3.toNat ∧ c.params.p3.toNat ≤ 20000000) →
          (c.params.p4 ≠ 0 → c.params.p4.toNat < 10 ∨ 20000000 < c.params.p4.toNat →
            rangeCheck floor top (.motion m) c = some 4) ∧
          (c.params.p4 = 0 ∨ (10 ≤ c.params.p4.toNat ∧ c.params.p4.toNat ≤ 20000000) →
            (c.params.p5 ≠ 0 → c.params.p5.toNat < 100 ∨ 2000000000 < c.params.p5.toNat →
              rangeCheck floor top (.motion m) c = some 5) ∧
            (c.params.p5 = 0 ∨ (100 ≤ c.params.p5.toNat ∧ c.params.p5.toNat ≤ 2000000000) →
              (c.options.gated = true → 16 ≤ c.gateNumber → rangeCheck floor top (.motion m) c = some 8) ∧
              ((c.options.gated = true → c.gateNumber < 16) → rangeCheck floor top (.motion m) c =
                if c.options.deadline = true ∧ c.deadline = 0 then some 9 else none))))))) ∧
  (∀ (floor top : Nat) (c : CellWords) (late : Option Nat),
    late = (if c.options.gated = true ∧ 16 ≤ c.gateNumber then some 8
      else if c.options.deadline = true ∧ c.deadline = 0 then some 9 else none) →
    rangeCheck floor top (.motion .dwell) c = (if 60000 < c.params.p1.toNat then some 1 else late) ∧
    rangeCheck floor top (.motion .reference) c =
      (if 1 < c.params.p1.toNat then some 1
       else if c.params.p2.toNat < floor ∨ top < c.params.p2.toNat then some 2
       else if c.params.p3.toNat < 1 ∨ floor < c.params.p3.toNat then some 3
       else if 1 < c.params.p4.toNat then some 4
       else if 1000 < (c.params.p5.extractLsb' 0 16).toNat ∨ 1 < (c.params.p5.extractLsb' 16 16).toNat then some 5
       else if 100 < (c.params.p7.extractLsb' 24 8).toNat then some 7 else late)) ∧
  (∀ (floor top : Nat) (c : CellWords) (q a target : Nat),
    q = c.params.p1.toNat → a = c.params.p5.toNat → target = (c.params.p6.extractLsb' 0 16).toNat →
    rangeCheck floor top .armWatch c =
      (if q < 1 ∨ 6 < q then some 1
       else if q ≠ 6 ∧ 3 < c.params.p2.toNat then some 2
       else if q ≠ 5 ∧ (c.params.p3.toNat < 1 ∨ 4 < c.params.p3.toNat ∨
           (c.params.p3.toNat = 4 ∧ q ≠ 1 ∧ q ≠ 2)) then some 3
       else if a < 1 ∨ 7 < a then some 5
       else if (a = 1 ∧ 15 < target) ∨ (2 ≤ a ∧ a ≤ 6 ∧ 3 < target) then some 6
       else if (a = 5 ∧ (c.params.p7.toNat < 1 ∨ 400000 < c.params.p7.toNat)) ∨
           (a = 6 ∧ (c.params.p7.toNat < 1 ∨ 1000 < c.params.p7.toNat)) then some 7
       else none)) ∧
  (∀ (floor top : Nat) (c : CellWords),
    rangeCheck floor top (.control .stopAxis) c = (if 1 < c.params.p1.toNat then some 1 else none) ∧
    rangeCheck floor top (.control .override) c =
      (if c.params.p1.toNat < 1 ∨ 200 < c.params.p1.toNat then some 1 else none) ∧
    (∀ k, k = .openGate ∨ k = .closeGate →
      rangeCheck floor top (.control k) c = if 15 < c.params.p1.toNat then some 1 else none) ∧
    rangeCheck floor top (.control .cancelWatch) c = (if 479 < c.params.p1.toNat then some 1 else none) ∧
    (∀ k, k = .hold ∨ k = .resume ∨ k = .advance ∨ k = .setPosition ∨ k = .clearFault →
      rangeCheck floor top (.control k) c = none))

/-- A refused cell: its result part holds the code and the detail, its state byte REFUSED, its held mark is set, it
is linked at the tail of the return chain with RETURN where it has NOTIFY, the walk counts it, marks the axis and
goes on along the post link; nothing else changes (R10, R34, R36, R151). -/
def Obligations.VisitRefusesCell : Prop :=
  ∀ (s : State) (w : Walk) (r : Race) (code : RefusalCode) (detail : Nat) (mark : Option AxisIx),
    s.memoryWf = true → s.onePlace → s.settled = true → s.offeredAt w → s.decides w = .refused code detail mark →
    ∃ t, exec (.cellVisit r) s = .next t ∧
      t.readByte (0x800 + 64 * w.at_) = 7 ∧
      t.resultReads w.at_ (bytes4 code.code detail 0 0) 0 0 0 0 ∧
      (∀ a, ¬ mayWrite s w.at_ a → t.readByte a = s.readByte a) ∧
      (∀ tail, s.chain.getLast? = some tail → tail < 480 → t.returnLink tail = w.at_) ∧
      s.holdsToo t w.at_ ∧ t.chain = s.chain ++ [w.at_] ∧
      t.causes = { s.causes with ret := s.causes.ret || (s.cellWords w.at_).options.notify } ∧
      t.walk = some { w with
        at_ := (s.cellWords w.at_).postLink
        refused := w.refused + 1
        marks := match mark with
          | some ax => w.marks.set ax true
          | none => w.marks } ∧
      t = { s with
            visitRead := [], mem := t.mem, held := t.held, chain := t.chain, causes := t.causes, walk := t.walk }

/-- A motion order admitted on an axis that is not IDLE joins the tail of its list with its admitted copy and does not
start: ADMITTED, an empty result part, held; nothing else changes (R7, R10, R37, R44). The head of an IDLE axis with
an empty list: GATED at a closed gate it waits, in WAITING, entered in the gate's waiting record; else a DWELL of more
than 0 ms starts, ACTIVE, counting its duration, with its deadline armed where it has one, and a consuming claim
closes the gate (R49, R50, R56, R66, R128). -/
def Obligations.VisitQueuesOrder : Prop :=
  (∀ (s : State) (w : Walk) (r : Race) (k : MotionKind) (ax : AxisIx),
    s.memoryWf = true → s.quiet = true → s.offeredAt w → s.decides w = .motion k ax →
    (s.axis ax).state ≠ .idle →
    ∃ t, exec (.cellVisit r) s = .next t ∧
      t.readByte (0x800 + 64 * w.at_) = 2 ∧ t.resultReads w.at_ 0 0 0 0 0 ∧ s.writesOnly t w.at_ ∧
      s.holdsToo t w.at_ ∧
      t.axis ax = { s.axis ax with list := (s.axis ax).list ++
        [{ cell := w.at_, kind := k, opts := (s.cellWords w.at_).options.applyTo k,
           gate := gateOfNat (s.cellWords w.at_).gateNumber, deadline := (s.cellWords w.at_).deadline,
           params := (s.cellWords w.at_).params }] } ∧
      (∀ j, j ≠ ax → t.axis j = s.axis j) ∧
      t.walk = some { w with at_ := (s.cellWords w.at_).postLink, admitted := w.admitted + 1 } ∧
      t = { s with visitRead := [], mem := t.mem, held := t.held, axes := t.axes, walk := t.walk }) ∧
  (∀ (s : State) (w : Walk) (r : Race) (k : MotionKind) (ax : AxisIx) (e : Entry),
    s.memoryWf = true → s.quiet = true → s.offeredAt w → s.decides w = .motion k ax →
    (s.axis ax).state = .idle → (s.axis ax).list = [] → e = entryOf w.at_ k (s.cellWords w.at_) →
    ((e.opts.gated = true ∧ s.gateOpen e.gate = false) ∨
      (k = .dwell ∧ e.params.p1 ≠ 0 ∧ (e.opts.gated = true → s.gateOpen e.gate = true))) →
    ∃ t, exec (.cellVisit r) s = .next t ∧
      t.resultReads w.at_ 0 0 0 0 0 ∧ s.writesOnly t w.at_ ∧ s.holdsToo t w.at_ ∧
      (t.axis ax).stopCause = .none ∧
      t.axis ax = { s.axis ax with
        state := (t.axis ax).state, stopCause := (t.axis ax).stopCause, list := (t.axis ax).list } ∧
      (∀ j, j ≠ ax → t.axis j = s.axis j) ∧
      t.walk = some { w with at_ := (s.cellWords w.at_).postLink, admitted := w.admitted + 1 } ∧
      t = { s with
            visitRead := [], mem := t.mem, held := t.held, axes := t.axes, walk := t.walk, gates := t.gates,
            waiting := t.waiting } ∧
      (e.opts.gated = true ∧ s.gateOpen e.gate = false →
        t.readByte (0x800 + 64 * w.at_) = 4 ∧ (t.axis ax).state = .waiting ∧
        (t.axis ax).list = [{ e with status := .waiting }] ∧ t.waiting = s.waiting ++ [(e.gate, ax)] ∧
        t.gates = s.gates) ∧
      (¬ (e.opts.gated = true ∧ s.gateOpen e.gate = false) →
        t.readByte (0x800 + 64 * w.at_) = 3 ∧ (t.axis ax).state = .running ∧
        (t.axis ax).list = [{ e with
          status := .active, dwellLeft := e.params.p1.toNat
          deadlineTimer := if e.opts.deadline then some e.deadline else none }] ∧
        t.gates = (if e.opts.gated && !e.opts.observe then s.gates.set e.gate false else s.gates) ∧
        t.waiting = s.waiting))

/-- Orders that start at their admission on an IDLE axis with an empty list, ungated. A MOVE_ABS or MOVE_REL that
passes its start checks: ACTIVE, RUNNING, its first speed the floor speed, in the direction of its target, the
positions unchanged (R50, R72, R76, R91, R99). A JOG whose edge lies ahead starts in the same way toward its edge;
were its plan unable to stop there, it would be STOPPING with cause LIMIT_EDGE at once, which a LINEAR JOG from the
floor speed never is (R52, R79, R101). A REFERENCE starts in the phase that the inputs choose: CLEAR at creep speed
away from an active search signal, SEEK_BACK away from an active limit, else APPROACH (R135). A move to where the axis
stands and a DWELL of 0 ms end COMPLETED at once, a JOG at its edge LIMITED, with the positions of the axis, linked
with RETURN where the cell has NOTIFY (R18, R52, R151). That a JOG toward a window edge of −2,147,483,648 has that
edge is log 13. -/
def Obligations.VisitStartsMove : Prop :=
  (∀ (s : State) (w : Walk) (r : Race) (k : MotionKind) (ax : AxisIx) (target : Int),
    s.memoryWf = true → s.quiet = true → s.watches = [] → s.offeredAt w → s.decides w = .motion k ax →
    (s.axis ax).state = .idle → (s.axis ax).list = [] → (s.axis ax).moving = false →
    (s.cellWords w.at_).options.gated = false →
    ((k = .moveAbs ∧ target = (s.cellWords w.at_).params.p1.toInt) ∨
      (k = .moveRel ∧ target = (s.axis ax).commanded.toInt + (s.cellWords w.at_).params.p1.toInt)) →
    target ≠ (s.axis ax).commanded.toInt → -2147483648 ≤ target → target ≤ 2147483647 →
    ((s.axis ax).setup.windowEnable = true →
      (s.axis ax).setup.windowLow ≤ target ∧ target ≤ (s.axis ax).setup.windowHigh) →
    ((s.axis ax).setup.requireRef = true → k = .moveAbs → (s.axis ax).referenced = true) →
    (s.axis ax).readyActive = true →
    (s.axis ax).limitActive (if target < (s.axis ax).commanded.toInt then .minus else .plus) = false →
    ∃ t, exec (.cellVisit r) s = .next t ∧
      t.readByte (0x800 + 64 * w.at_) = 3 ∧ t.resultReads w.at_ 0 0 0 0 0 ∧ s.writesOnly t w.at_ ∧
      s.holdsToo t w.at_ ∧
      (t.axis ax).state = .running ∧ (t.axis ax).stopCause = .none ∧ (t.axis ax).moving = true ∧
      (t.axis ax).prof.dir = (if target < (s.axis ax).commanded.toInt then .minus else .plus) ∧
      (t.axis ax).prof.speedSq = sqOf (s.axis ax).setup.floor ∧
      (t.axis ax).commanded = (s.axis ax).commanded ∧ (t.axis ax).feedback = (s.axis ax).feedback ∧
      (∃ e, (t.axis ax).list = [e] ∧ e.cell = w.at_ ∧ e.status = .active ∧ e.target = target) ∧
      (∃ p, (t.axis ax).prof.plan = some p ∧ p.length = (target - (s.axis ax).commanded.toInt).natAbs ∧
        p.moved = 0) ∧
      (∀ j, j ≠ ax → t.axis j = s.axis j) ∧
      t.walk = some { w with at_ := (s.cellWords w.at_).postLink, admitted := w.admitted + 1 } ∧
      t = { s with visitRead := [], mem := t.mem, held := t.held, axes := t.axes, walk := t.walk }) ∧
  (∀ (s : State) (w : Walk) (r : Race) (k : MotionKind) (ax : AxisIx) (e : Entry) (a : Axis),
    s.memoryWf = true → s.quiet = true → s.watches = [] → s.offeredAt w → s.decides w = .motion k ax →
    a = s.axis ax → a.state = .idle → a.list = [] → a.moving = false → a.readyActive = true →
    e = entryOf w.at_ k (s.cellWords w.at_) → e.opts.gated = false →
    -- a JOG, a REFERENCE
    ((k = .jog ∧ a.limitActive (dirOfWord e.params.p1) = false ∧
        0 < (jogEdge a.setup (dirOfWord e.params.p1) - a.commanded.toInt) * (dirOfWord e.params.p1).sign) ∨
      (k = .reference ∧ a.limitActive (dirOfWord e.params.p1).opposite = false) →
      ∃ t, exec (.cellVisit r) s = .next t ∧
        t.readByte (0x800 + 64 * w.at_) = 3 ∧ t.resultReads w.at_ 0 0 0 0 0 ∧ s.writesOnly t w.at_ ∧
        s.holdsToo t w.at_ ∧
        (t.axis ax).moving = true ∧ (t.axis ax).commanded = a.commanded ∧ (t.axis ax).feedback = a.feedback ∧
        (∃ e', (t.axis ax).list = [e'] ∧ e'.cell = w.at_ ∧ e'.kind = k ∧ e'.status = .active ∧
          (k = .jog → e'.target = jogEdge a.setup (dirOfWord e.params.p1) ∧ e'.dir = dirOfWord e.params.p1)) ∧
        (∀ j, j ≠ ax → t.axis j = s.axis j) ∧
        t.walk = some { w with at_ := (s.cellWords w.at_).postLink, admitted := w.admitted + 1 } ∧
        t = { s with visitRead := [], mem := t.mem, held := t.held, axes := t.axes, walk := t.walk } ∧
        (k = .jog → (t.axis ax).prof.dir = dirOfWord e.params.p1 ∧
          (t.axis ax).prof.speedSq = sqOf a.setup.floor ∧
          (((t.axis ax).state = .running ∧ (t.axis ax).stopCause = .none) ∨
            ((t.axis ax).state = .stopping ∧ (t.axis ax).stopCause = .limitEdge ∧ (t.axis ax).rampEnd = .limited)) ∧
          (e.opts.smooth = false → 0 < rateOr e.params.p3 a.setup.accel → 0 < rateOr e.params.p4 a.setup.decel →
            (t.axis ax).state = .running) ∧
          ∃ p, (t.axis ax).prof.plan = some p ∧ p.moved = 0 ∧ p.length =
            ((jogEdge a.setup (dirOfWord e.params.p1) - a.commanded.toInt) * (dirOfWord e.params.p1).sign).toNat) ∧
        (k = .reference → (t.axis ax).state = .running ∧
          (a.searchActive e = true → (t.axis ax).ref.phase = .clear ∧
            (t.axis ax).prof.dir = (dirOfWord e.params.p1).opposite ∧
            (t.axis ax).prof.speedSq = sqOf e.params.p3.toNat) ∧
          (a.searchActive e = false → e.params.p4 = 0 → a.limitActive (dirOfWord e.params.p1) = true →
            (t.axis ax).ref.phase = .seekBack ∧ (t.axis ax).prof.dir = (dirOfWord e.params.p1).opposite ∧
            (t.axis ax).prof.speedSq = sqOf a.setup.floor) ∧
          (a.searchActive e = false → e.params.p4 ≠ 0 ∨ a.limitActive (dirOfWord e.params.p1) = false →
            (t.axis ax).ref.phase = .approach ∧ (t.axis ax).prof.dir = dirOfWord e.params.p1 ∧
            (t.axis ax).prof.speedSq = sqOf a.setup.floor))) ∧
    -- nothing to move
    (s.onePlace →
      (k = .moveAbs ∧ e.params.p1 = a.commanded ∧ (a.setup.requireRef = true → a.referenced = true) ∧
          a.allowsTarget k a.commanded.toInt) ∨
        (k = .moveRel ∧ e.params.p1 = 0 ∧ a.allowsTarget k a.commanded.toInt) ∨
        (k = .dwell ∧ e.params.p1 = 0) ∨
        (k = .jog ∧ a.limitActive (dirOfWord e.params.p1) = false ∧
          (jogEdge a.setup (dirOfWord e.params.p1) - a.commanded.toInt) * (dirOfWord e.params.p1).sign ≤ 0) →
      ∃ t, exec (.cellVisit r) s = .next t ∧
        t.readByte (0x800 + 64 * w.at_) = 6 ∧
        t.resultReads w.at_ (if k = .jog then 4 else 1) 0 a.commanded a.feedback 0 ∧
        (∀ b, ¬ mayWrite s w.at_ b → t.readByte b = s.readByte b) ∧
        s.holdsToo t w.at_ ∧ t.chain = s.chain ++ [w.at_] ∧
        t.causes = { s.causes with ret := s.causes.ret || e.opts.notify } ∧
        (t.axis ax).state = .idle ∧ (t.axis ax).list = [] ∧ (t.axis ax).moving = false ∧
        (t.axis ax).commanded = a.commanded ∧ (t.axis ax).feedback = a.feedback ∧
        (∀ j, j ≠ ax → t.axis j = s.axis j) ∧
        t.walk = some { w with at_ := (s.cellWords w.at_).postLink, admitted := w.admitted + 1 } ∧
        t = { s with
              visitRead := [], mem := t.mem, held := t.held, chain := t.chain, causes := t.causes, axes := t.axes,
              walk := t.walk }))

/-- An order that fails its start checks on an IDLE axis, the checks in their order and the first that fails deciding:
drive ready (206), the limit in the travel direction (201, with detail 1 for plus and 2 for minus), not examined for a
move of no length, the 32-bit range of a MOVE_REL and the window (202, details 3, 1 and 2), the reference of a MOVE_ABS
where the setup requires it (209). The fault is recorded with the cell, the order ends FAULTED with the code as its
reason and elapsed 0, and the axis is FAULTED at once, without a pulse, whatever the reaction (R18, R50, R51, R69, R97,
R99, R100, R102, R104, R110). -/
def Obligations.StartChecksFail : Prop :=
  ∀ (s : State) (w : Walk) (r : Race) (k : MotionKind) (ax : AxisIx) (e : Entry) (a : Axis) (target : Int) (d : Dir)
    (code detail : Nat),
    s.memoryWf = true → s.onePlace → s.quiet = true → s.watches = [] → r.collects = [] → s.offeredAt w →
    s.decides w = .motion k ax → a = s.axis ax → a.state = .idle → a.list = [] → a.moving = false →
    s.faultEntry (.axis ax) = none → e = entryOf w.at_ k (s.cellWords w.at_) → e.opts.gated = false →
    target = (if k = .moveAbs then e.params.p1.toInt else a.commanded.toInt + e.params.p1.toInt) →
    d = (if k = .jog then dirOfWord e.params.p1 else dirTo a.commanded.toInt target) →
    ((k ≠ .dwell ∧ a.readyActive = false ∧ code = 206 ∧ detail = 0) ∨
      (a.readyActive = true ∧ (k = .jog ∨ (k.positional = true ∧ target ≠ a.commanded.toInt)) ∧
        a.limitActive d = true ∧ code = 201 ∧ detail = if d = .plus then 1 else 2) ∨
      (a.readyActive = true ∧ k.positional = true ∧ (target = a.commanded.toInt ∨ a.limitActive d = false) ∧
        ((code = 202 ∧ k = .moveRel ∧ (target < -2147483648 ∨ 2147483647 < target) ∧ detail = 3) ∨
          (-2147483648 ≤ target ∧ target ≤ 2147483647 ∧
            ((code = 202 ∧ a.setup.windowEnable = true ∧ a.setup.windowHigh < target ∧ detail = 1) ∨
              (code = 202 ∧ a.setup.windowEnable = true ∧ target ≤ a.setup.windowHigh ∧
                target < a.setup.windowLow ∧ detail = 2) ∨
              (code = 209 ∧ k = .moveAbs ∧ detail = 0 ∧ a.setup.requireRef = true ∧ a.referenced = false ∧
                (a.setup.windowEnable = true → a.setup.windowLow ≤ target ∧ target ≤ a.setup.windowHigh))))))) →
    ∃ t, exec (.cellVisit r) s = .next t ∧
      t.readByte (0x800 + 64 * w.at_) = 6 ∧
      t.resultReads w.at_ (bytes4 6 code 0 0) 0 a.commanded a.feedback 0 ∧
      (∀ b, ¬ mayWrite s w.at_ b → t.readByte b = s.readByte b) ∧ s.holdsToo t w.at_ ∧
      t.chain = s.chain ++ [w.at_] ∧ s.reports t ax code detail w.at_ ∧
      t.causes = { s.causes with ret := s.causes.ret || e.opts.notify, fault := true } ∧
      (t.axis ax).state = .faulted ∧ (t.axis ax).stopCause = .fault ∧ (t.axis ax).pendingFault = false ∧
      (t.axis ax).list = [] ∧ (t.axis ax).moving = false ∧ (t.axis ax).driveEnable = false ∧
      (t.axis ax).commanded = a.commanded ∧ (t.axis ax).feedback = a.feedback ∧
      (t.axis ax).referenced = (a.referenced && k != .reference) ∧
      (t.axis ax).prof.edgesA = a.prof.edgesA ∧ (t.axis ax).prof.edgesB = a.prof.edgesB ∧ s.otherAxes t ax ∧
      t.walk = some { w with at_ := (s.cellWords w.at_).postLink, admitted := w.admitted + 1 } ∧
      t = { s with
            visitRead := [], mem := t.mem, held := t.held, chain := t.chain, causes := t.causes, faults := t.faults,
            axes := t.axes, walk := t.walk }

/-- A watch is armed: ARMED, an empty result part, held, its entry behind the others with the admitted copy and the
truth of that moment, which does not fire (R10, R38, R112, R117). The codes of its parameters name quantity and source,
condition, and action with target and value (R14). What each quantity is at a moment (R114), and what each condition
says of it: the four comparisons on the mathematical values with the signed threshold, for an event input its active
state (R115); that a speed is compared itself, not as it is shown, is the model's reading (log 34). -/
def Obligations.VisitArmsWatch : Prop :=
  (∀ (s : State) (w : Walk) (r : Race),
    s.memoryWf = true → s.quiet = true → s.offeredAt w → s.decides w = .watch →
    ∃ t, exec (.cellVisit r) s = .next t ∧
      t.readByte (0x800 + 64 * w.at_) = 5 ∧ t.resultReads w.at_ 0 0 0 0 0 ∧ s.writesOnly t w.at_ ∧
      s.holdsToo t w.at_ ∧
      (∃ v : Watch, t.watches = s.watches ++ [v] ∧ v.cell = w.at_ ∧
        v.quantity = quantityOf (s.cellWords w.at_).params ∧
        v.condition = conditionOf (s.cellWords w.at_).params ∧
        v.threshold = (s.cellWords w.at_).params.p4.toInt ∧ v.action = actionOf (s.cellWords w.at_).params ∧
        v.repeatLeft = ((s.cellWords w.at_).params.p6.extractLsb' 16 16).toNat ∧
        v.notify = (s.cellWords w.at_).options.notify ∧ v.fireCount = 0 ∧ v.sinceArm = 0 ∧ v.elapsed = 0 ∧
        v.truth = v.condition.holds v.threshold (s.sample v)) ∧
      t.walk = some { w with at_ := (s.cellWords w.at_).postLink, admitted := w.admitted + 1 } ∧
      t = { s with visitRead := [], mem := t.mem, held := t.held, watches := t.watches, walk := t.walk }) ∧
  -- the codes
  (∀ p : Params,
    (∀ n : Fin 4, p.p2.toNat = n.val →
      (p.p1 = 1 → quantityOf p = .commandedPos n) ∧ (p.p1 = 2 → quantityOf p = .feedbackPos n) ∧
      (p.p1 = 3 → quantityOf p = .speed n) ∧ (p.p1 = 4 → quantityOf p = .followingError n) ∧
      (p.p1 = 5 → quantityOf p = .eventInput n)) ∧
    (p.p1 = 6 → quantityOf p = .elapsed) ∧
    (p.p3 = 1 → conditionOf p = .atOrAbove) ∧ (p.p3 = 2 → conditionOf p = .above) ∧
    (p.p3 = 3 → conditionOf p = .below) ∧ (p.p3 = 4 → conditionOf p = .equal) ∧
    (∀ g : Fin 16, (p.p6.extractLsb' 0 16).toNat = g.val → p.p5 = 1 → actionOf p = .openGate g) ∧
    (∀ n : Fin 4, (p.p6.extractLsb' 0 16).toNat = n.val →
      (p.p5 = 2 → actionOf p = .advance n) ∧ (p.p5 = 3 → actionOf p = .hold n) ∧
      (p.p5 = 4 → actionOf p = .stop n) ∧ (p.p5 = 5 → actionOf p = .setSpeed n p.p7.toNat) ∧
      (p.p5 = 6 → actionOf p = .pulseOutput n p.p7.toNat)) ∧
    (p.p5 = 7 → actionOf p = .latchOnly)) ∧
  -- the quantities
  (∀ (s : State) (v : Watch) (n : Fin 4),
    (v.quantity = .commandedPos n → s.sample v = .value (s.axis n).commanded.toInt) ∧
    (v.quantity = .feedbackPos n → s.sample v = .value (s.axis n).feedback.toInt) ∧
    (v.quantity = .speed n → s.sample v = .speedSq (s.axis n).prof.speedSq) ∧
    (v.quantity = .followingError n → s.sample v = .value ((s.axis n).followErr.toInt.natAbs : Nat)) ∧
    (v.quantity = .eventInput n → s.sample v = .level (s.events.get n)) ∧
    (v.quantity = .elapsed → s.sample v = .value v.elapsed)) ∧
  -- the comparisons
  (∀ t v : Int, (Condition.atOrAbove.holds t (.value v) = true ↔ t ≤ v) ∧
    (Condition.above.holds t (.value v) = true ↔ t < v) ∧ (Condition.below.holds t (.value v) = true ↔ v < t) ∧
    (Condition.equal.holds t (.value v) = true ↔ v = t)) ∧
  (∀ (c : Condition) (t : Int) (v : Nat), c.holds t (.speedSq (sqOf v)) = c.holds t (.value v)) ∧
  (∀ (t : Int) (sq : Nat),
    (Condition.atOrAbove.holds t (.speedSq sq) = true ↔ t < 0 ∨ sqOf t.toNat ≤ sq) ∧
    (Condition.above.holds t (.speedSq sq) = true ↔ t < 0 ∨ sqOf t.toNat < sq) ∧
    (Condition.below.holds t (.speedSq sq) = true ↔ 0 ≤ t ∧ sq < sqOf t.toNat)) ∧
  (∀ (c : Condition) (t : Int) (b : Bool), c.holds t (.level b) = b)

/-- A control order that its owning block carries out: after that block's effect its cell ends DONE with the
positions of its axis, is held and is linked, and the walk counts it as admitted; then what follows an event follows,
which is nothing where nothing is reported and no COLLECT read falls between two linkings (R18, R39, R151, R154,
R185; logs 7 and 22). That its cell is linked behind every cell that its effect itself ends, and that reported changes
are taken after its cell has ended, are the model's choices (logs 37 and 38). -/
def Obligations.VisitCarriesOutControl : Prop :=
  ∀ (s s' : State) (w : Walk) (r : Race) (sc : Scope),
    s.offeredAt w → s.decides w = .done sc s' → s'.memoryWf = true →
    (∀ tail, s'.chain.getLast? = some tail → tail ≠ w.at_) →
    ∃ t, exec (.cellVisit r) s = .next (s.close r t) ∧ (s'.settled = true → r.collects = [] → s.close r t = t) ∧
      t.readByte (0x800 + 64 * w.at_) = 6 ∧
      (∀ ax, sc = .axis ax →
        t.resultReads w.at_ 9 0 (s'.axis ax).commanded (s'.axis ax).feedback 0) ∧
      (sc = .module → t.resultReads w.at_ 9 0 0 0 0) ∧
      (∀ a, ¬ mayWrite s' w.at_ a → t.readByte a = s'.readByte a) ∧
      s'.holdsToo t w.at_ ∧ t.chain = s'.chain ++ [w.at_] ∧
      t.causes = { s'.causes with ret := s'.causes.ret || (s.cellWords w.at_).options.notify } ∧
      t.walk = some { w with at_ := (s.cellWords w.at_).postLink, admitted := w.admitted + 1 } ∧
      t = { s' with
            visitRead := [], mem := t.mem, held := t.held, chain := t.chain, causes := t.causes, walk := t.walk }

/-! ### Control orders (chapters 3 to 6, 9) -/

/-- Which requests are refused in which axis state, with their reasons (R61 to R64, R107, and the table of 3.6). -/
def Obligations.RequestsRefused : Prop :=
  ∀ (s : State) (ax : AxisIx) (p : Params),
    (((s.axis ax).state = .idle ∧ p.p1 = 0) ∨ (s.axis ax).state = .faulted ∨
        ((s.axis ax).state = .stopping ∧ (p.p1 = 0 ∨ (s.axis ax).stopCause = .fault)) →
      s.carryOut .stopAxis (.axis ax) p = .refused .notApplicable 1) ∧
    ((s.axis ax).state = .idle → p.p1 ≠ 0 → s.carryOut .stopAxis (.axis ax) p = .done s) ∧
    ((s.axis ax).state ∈ [AxisState.idle, .waiting, .stopping, .faulted] →
      s.carryOut .hold (.axis ax) p = .refused .notApplicable 1 ∧
      s.carryOut .advance (.axis ax) p = .refused .notApplicable 1) ∧
    ((s.axis ax).state ∈ [AxisState.idle, .waiting, .running, .stopping, .faulted] →
      s.carryOut .resume (.axis ax) p = .refused .notApplicable 1) ∧
    ((s.axis ax).state = .holding ∨ (s.axis ax).state = .held → s.carryOut .hold (.axis ax) p = .done s) ∧
    (∀ e es, (s.axis ax).list = e :: es → e.kind = .reference → (s.axis ax).state = .running →
      s.carryOut .hold (.axis ax) p = .refused .notApplicable 4 ∧
      s.carryOut .advance (.axis ax) p = .refused .notApplicable 4) ∧
    ((s.axis ax).state ∈ [AxisState.waiting, .running, .holding, .held, .stopping] →
      s.carryOut .setPosition (.axis ax) p = .refused .notApplicable 2)

/-- Requests carried out: SET_POSITION in IDLE or FAULTED writes both counters, clears the referenced flag and
recomputes the following error; OVERRIDE where no move or JOG is RUNNING sets the percentage alone; HOLD and RESUME
of a DWELL change the axis state alone (R56, R62, R63, R82, R107). RESUME of a held or holding move or JOG plans it to
its target or edge, from standstill with a floor step, or from the speed and the acceleration it has, with no decision
taken on it; a commit point at its position has the flying decision taken at once: declined with its reason, or taken,
the successor bound at the junction speed and its claim granted; a JOG whose plan reports its edge at once is STOPPING
with cause LIMIT_EDGE (R57, R63, R79, R80, R89, R128). ADVANCE ends a DWELL, and a HELD move without FLY, ADVANCED at
once (R64). ADVANCE of a move with FLY ends it ADVANCED, and its successor starts at the speed of that moment, or from
standstill with a floor step: of a bound pair with the fly outcome that stands and no gate examined, of a move not
decided before whose fly conditions hold with FLY_TAKEN and the successor's claim granted (R65, R81); where a fly
condition fails, its reason is recorded and the move ramps down (R64, R65). -/
def Obligations.RequestsCarriedOut : Prop :=
  ∀ (s : State) (ax : AxisIx) (p : Params),
    ((s.axis ax).state = .idle ∨ (s.axis ax).state = .faulted →
      ∃ t, s.carryOut .setPosition (.axis ax) p = .done t ∧
        t.axis ax = { s.axis ax with
          commanded := p.p1, feedback := p.p2, referenced := false,
          followErr := followErrorOf (s.axis ax).setup p.p1 p.p2 } ∧
        (∀ j, j ≠ ax → t.axis j = s.axis j) ∧ t.mem = s.mem ∧ t.chain = s.chain ∧
        t.watches.length = s.watches.length ∧
        (∀ (i : Nat) (v v' : Watch), s.watches[i]? = some v → t.watches[i]? = some v' →
          v' = { v with truth := if v.quantity.assignedOn ax then t.watchHolds v else v.truth })) ∧
    ((s.axis ax).state ≠ .running ∨ (s.axis ax).headMoves = false →
      ∃ t, s.carryOut .override (.axis ax) p = .done t ∧
        t.axis ax = { s.axis ax with prof := { (s.axis ax).prof with override := p.p1.toNat } } ∧
        (∀ j, j ≠ ax → t.axis j = s.axis j) ∧ t = { s with axes := t.axes }) ∧
    (∀ e es, (s.axis ax).list = e :: es → e.kind = .dwell →
      ((s.axis ax).state = .running → ∃ t, s.carryOut .hold (.axis ax) p = .done t ∧
        t.axis ax = { s.axis ax with state := .held, stopCause := .none } ∧
        (∀ j, j ≠ ax → t.axis j = s.axis j) ∧ t = { s with axes := t.axes }) ∧
      ((s.axis ax).state = .held → ∃ t, s.carryOut .resume (.axis ax) p = .done t ∧
        t.axis ax = { s.axis ax with state := .running, stopCause := .none } ∧
        (∀ j, j ≠ ax → t.axis j = s.axis j) ∧ t = { s with axes := t.axes })) ∧
    -- RESUME of a move or JOG
    (∀ (a : Axis) (e : Entry) (es : List Entry) (speedSq room : Nat) (accel : Int) (q : Plan),
      s.watches = [] → a = s.axis ax → a.list = e :: es → e.kind.moves = true →
      (∀ n ns, es = n :: ns → n.bound = false) → 0 < e.remaining a.commanded.toInt →
      (a.state = .holding ∧ a.moving = true ∧ speedSq = a.prof.speedSq ∧ accel = a.prof.accel) ∨
        (a.state = .held ∧ a.moving = false ∧ a.readyActive = true ∧ a.limitActive e.dir = false ∧
          speedSq = sqOf a.setup.floor ∧ accel = 0) →
      room = (e.remaining a.commanded.toInt).toNat →
      q = (orderRates a.setup e).plan speedSq accel room (a.targetSpeed e) a.setup.floor
        (e.opts.fly && e.kind.positional) →
      ∃ t, s.carryOut .resume (.axis ax) p = .done t ∧ (t.axis ax).moving = true ∧
        (t.axis ax).prof.speedSq = speedSq ∧ (a.moving = false → (t.axis ax).prof.dir = e.dir) ∧
        (t.axis ax).commanded = a.commanded ∧ (t.axis ax).feedback = a.feedback ∧
        q.moved = 0 ∧ q.startSq = speedSq ∧ q.length = room ∧ q.targetSpeed = a.targetSpeed e ∧
        q.endSpeed = a.setup.floor ∧ s.otherAxes t ax ∧ t = { s with gates := t.gates, axes := t.axes } ∧
        -- nothing is due at once
        ((e.kind = .jog → q.reportAt ≠ 0) → (e.kind ≠ .jog → q.commitAt ≠ some 0) →
          (t.axis ax).state = .running ∧ (t.axis ax).list = { e with decided := false } :: es ∧
          (t.axis ax).prof.plan = some q ∧ t.gates = s.gates) ∧
        -- the edge report of a JOG
        (e.kind = .jog → q.reportAt = 0 →
          (t.axis ax).state = .stopping ∧ (t.axis ax).stopCause = .limitEdge ∧ (t.axis ax).rampEnd = .limited ∧
          (t.axis ax).list = { e with decided := false } :: es ∧ (t.axis ax).prof.plan = some q ∧
          t.gates = s.gates) ∧
        -- the flying decision
        (e.kind ≠ .jog → q.commitAt = some 0 → (t.axis ax).state = .running ∧
          (∀ reason, s.flyFails a.setup e es.head? e.target = some reason →
            (t.axis ax).list = { e with fly := .declined reason, decided := true } :: es ∧
            (t.axis ax).prof.plan = some q ∧ t.gates = s.gates) ∧
          (∀ n more, es = n :: more → s.flyFails a.setup e (some n) e.target = none →
            (t.axis ax).list = { e with fly := .taken, decided := true } :: { n with bound := true } :: more ∧
            (t.axis ax).prof.plan = some ((orderRates a.setup e).plan speedSq accel room (a.targetSpeed e)
              (a.junctionSpeed e n (a.targetSpeed e)) true) ∧
            t.gates = (if n.opts.gated = true ∧ n.opts.observe = false then s.gates.set n.gate false
              else s.gates)))) ∧
    -- ADVANCE of an order that ends at once
    (∀ e, s.memoryWf = true → s.onePlace → e.cell < 480 → (s.axis ax).list = [e] → e.status = .active →
      e.fly = .none → (s.axis ax).moving = false →
      (e.kind = .dwell ∧ ((s.axis ax).state = .running ∨ (s.axis ax).state = .held)) ∨
        (e.kind.moves = true ∧ e.opts.fly = false ∧ (s.axis ax).state = .held) →
      ∃ t, s.carryOut .advance (.axis ax) p = .done t ∧ (t.axis ax).state = .idle ∧ (t.axis ax).list = [] ∧
        t.endReads e.cell 2 0 (s.axis ax).commanded (s.axis ax).feedback (BitVec.ofNat 32 e.elapsed) ∧
        t.chain = s.chain ++ [e.cell] ∧ t.causes = { s.causes with ret := s.causes.ret || e.opts.notify } ∧
        (∀ a, ¬ mayWrite s e.cell a → t.readByte a = s.readByte a) ∧
        (∀ j, j ≠ ax → t.axis j = s.axis j) ∧
        t = { s with mem := t.mem, chain := t.chain, causes := t.causes, axes := t.axes }) ∧
    -- ADVANCE of a move with FLY: the fly taken, the fly declined
    (∀ e n more, (s.axis ax).list = e :: n :: more → e.kind.positional = true → e.opts.fly = true →
      e.status = .active →
      (s.axis ax).state = .running ∨ (s.axis ax).state = .holding ∨ (s.axis ax).state = .held →
      (∀ target fly, s.memoryWf = true → s.onePlace → e.cell < 480 → n.cell < 480 → s.watches = [] →
        (n.bound = true ∧ fly = e.fly) ∨ (n.bound = false ∧ e.decided = false ∧ fly = .taken ∧
          s.flyFails (s.axis ax).setup e (some n) e.target = none) →
        (n.kind = .moveAbs ∧ target = n.params.p1.toInt) ∨
          (n.kind = .moveRel ∧ target = (s.axis ax).commanded.toInt + n.params.p1.toInt) →
        n.opts.fly = false → target ≠ (s.axis ax).commanded.toInt →
        (s.axis ax).allowsTarget n.kind target → (s.axis ax).readyActive = true →
        (s.axis ax).limitActive (dirTo (s.axis ax).commanded.toInt target) = false →
        ∃ t, s.carryOut .advance (.axis ax) p = .done t ∧ (t.axis ax).state = .running ∧
          t.endReads e.cell (bytes4 2 0 fly.bits 0) 0 (s.axis ax).commanded (s.axis ax).feedback
            (BitVec.ofNat 32 e.elapsed) ∧
          t.readByte (0x800 + 64 * n.cell) = 3 ∧
          (∃ n', (t.axis ax).list = n' :: more ∧ n'.cell = n.cell ∧ n'.status = .active ∧ n'.bound = false ∧
            n'.fly = .none ∧ n'.target = target) ∧
          (t.axis ax).prof.speedSq =
            (if (s.axis ax).moving = true then (s.axis ax).prof.speedSq else sqOf (s.axis ax).setup.floor) ∧
          (∃ q, (t.axis ax).prof.plan = some q ∧ q.moved = 0 ∧ q.startSq = (t.axis ax).prof.speedSq) ∧
          t.chain = s.chain ++ [e.cell] ∧ t.causes = { s.causes with ret := s.causes.ret || e.opts.notify } ∧
          (∀ j, j ≠ ax → t.axis j = s.axis j) ∧
          t.gates = (if n.bound = false ∧ n.opts.gated = true ∧ n.opts.observe = false
            then s.gates.set n.gate false else s.gates) ∧
          t = { s with
                mem := t.mem, chain := t.chain, causes := t.causes, axes := t.axes, gates := t.gates }) ∧
      (∀ reason, e.decided = false → n.bound = false → (s.axis ax).state ≠ .held → e.opts.smooth = false →
        sqOf (s.axis ax).setup.floor < (s.axis ax).prof.speedSq → 0 < rateOr e.params.p4 (s.axis ax).setup.decel →
        (s.axis ax).prof.dir = e.dir → -2147483647 ≤ e.target → e.target ≤ 2147483647 →
        0 < e.remaining (s.axis ax).commanded.toInt →
        s.flyFails (s.axis ax).setup e (some n) e.target = some reason →
        ∃ t, s.carryOut .advance (.axis ax) p = .done t ∧ (t.axis ax).state = .stopping ∧
          (t.axis ax).stopCause = .request ∧ (t.axis ax).rampEnd = .advanced ∧
          (t.axis ax).list = { e with fly := .declined reason, decided := true } :: n :: more ∧
          (∀ j, j ≠ ax → t.axis j = s.axis j) ∧ t = { s with axes := t.axes }))

/-- An OVERRIDE, or a SET_SPEED action with a new speed, that meets a RUNNING move. A SMOOTH ramp under way defers the
replan: the percentage is set and the replan pending (R82, R84, R86). A LINEAR move, or a SMOOTH one between its ramps,
is replanned at once from the speed and the position it has toward its target, with the new target speed (R83). Where
it may still fly and no decision was taken, a commit point at its position has the decision taken at once (R85); a
bound pair keeps its binding with the junction speed recomputed under the old one, where the move can still come down
to it, stated for a LINEAR move, and is else planned to its target, the binding dropped with FLY_DECLINED 5 (R60, R80,
R85). In HOLDING and HELD a SET_SPEED only keeps the new speed (R86). The pulse at which the SMOOTH ramp ends makes the
pending replan, and none before it does (R84); that a commit point at that very pulse comes after it is the model's
reading (log 30). -/
def Obligations.OverrideReplans : Prop :=
  (∀ (s : State) (ax : AxisIx) (p : Params), ∃ t, s.carryOut .override (.axis ax) p = .done t) ∧
  (∀ (s t : State) (ax : AxisIx) (p : Params) (v percent : Nat) (e e' : Entry) (es : List Entry) (a b : Axis)
      (q : Plan) (room : Int),
    a = s.axis ax → a.state = .running → a.list = e :: es → e.kind.positional = true → a.prof.plan = some q →
    q.moved < q.length → room = e.remaining a.commanded.toInt → 0 < room →
    ((s.carryOut .override (.axis ax) p = .done t ∧ percent = p.p1.toNat ∧ e' = e) ∨
      (s.perform (.setSpeed ax v) = t ∧ percent = a.prof.override ∧ e' = { e with newSpeed := some v })) →
    b = { a with prof := { a.prof with override := percent }, list := e' :: es } →
    s.otherAxes t ax ∧
    (e.opts.smooth = true → q.rampUnderWay = true → t = { s with axes := t.axes } ∧
      t.axis ax = { b with prof := { b.prof with pendingReplan := true } }) ∧
    (e.opts.smooth = false ∨ q.rampUnderWay = false →
      ∃ q', (t.axis ax).prof.plan = some q' ∧ q'.moved = 0 ∧ q'.startSq = a.prof.speedSq ∧
        q'.length = room.toNat ∧ q'.targetSpeed = b.targetSpeed e' ∧
        t.axis ax = { b with
          list := (t.axis ax).list
          prof := { b.prof with
            plan := some q', pendingReplan := false, accel := q'.accelAt 0, phase := q'.phaseAt 0 } } ∧
        ((∀ n ns, es = n :: ns → n.bound = false) →
          (e.opts.fly = false ∨ e.decided = true →
            t = { s with axes := t.axes } ∧ (t.axis ax).list = e' :: es ∧ q'.endSpeed = a.setup.floor) ∧
          (∀ reason, e.opts.fly = true → e.decided = false →
            s.flyFails a.setup e es.head? e.target = some reason →
            t = { s with axes := t.axes } ∧ q'.endSpeed = a.setup.floor ∧
            (t.axis ax).list =
              (if q'.commitAt = some 0 then { e' with fly := .declined reason, decided := true } else e') :: es)) ∧
        (∀ n more junction, es = n :: more → n.bound = true → e.opts.smooth = false →
          junction = b.junctionSpeed e' n q.endSpeed →
          t = { s with axes := t.axes } ∧
          (a.setup.floor ≤ junction ∧ (a.prof.speedSq ≤ sqOf junction ∨
              linearLen a.prof.speedSq (sqOf junction) (rateOr e.params.p4 a.setup.decel) ≤ room.toNat) →
            (t.axis ax).list = e' :: es ∧ q'.endSpeed = junction) ∧
          (¬ (a.setup.floor ≤ junction ∧ (a.prof.speedSq ≤ sqOf junction ∨
              linearLen a.prof.speedSq (sqOf junction) (rateOr e.params.p4 a.setup.decel) ≤ room.toNat)) →
            (t.axis ax).list = { e' with fly := .declined 5, decided := true } :: { n with bound := false } :: more ∧
              q'.endSpeed = a.setup.floor)))) ∧
  (∀ (s : State) (ax : AxisIx) (v : Nat) (e : Entry) (es : List Entry), (s.axis ax).list = e :: es →
    (s.axis ax).state = .holding ∨ (s.axis ax).state = .held → ∃ t, s.perform (.setSpeed ax v) = t ∧
      t.axis ax = { s.axis ax with list := { e with newSpeed := some v } :: es } ∧ s.otherAxes t ax ∧
      t = { s with axes := t.axes }) ∧
  -- the pulse
  (∀ (s : State) (ax : AxisIx) (r : Race) (a : Axis) (e : Entry) (es : List Entry) (q : Plan) (here : Int) (sq : Nat),
    s.quiet = true → s.watches = [] → a = s.axis ax → a.state = .running → a.moving = true → a.undisturbed →
    a.list = e :: es → e.status = .active → e.kind.positional = true → e.opts.smooth = true →
    e.opts.fly = false ∨ e.decided = true → (∀ n ns, es = n :: ns → n.bound = false) → a.ref.phase = .none →
    a.ref.rampStop = false → a.prof.pendingReplan = true → a.prof.plan = some q → q.moved + 1 < q.length →
    here = a.commanded.toInt + a.prof.dir.sign → -2147483648 ≤ here → here ≤ 2147483647 → 0 < e.remaining here →
    sq = max (sqOf a.setup.floor) (min (sqOf a.setup.maxSpeed) (q.sqAt (q.moved + 1))) →
    ∃ t q', exec (.outputPulse ax r) s = .next t ∧ (t.axis ax).state = .running ∧ (t.axis ax).list = e :: es ∧
      (t.axis ax).commanded.toInt = here ∧ (t.axis ax).prof.speedSq = sq ∧ (t.axis ax).prof.plan = some q' ∧
      (q.moved + 1 < q.first.len →
        (t.axis ax).prof.pendingReplan = true ∧ q' = { q with moved := q.moved + 1 }) ∧
      (q.moved + 1 = q.first.len → (t.axis ax).prof.pendingReplan = false ∧ q'.moved = 0 ∧ q'.startSq = sq ∧
        q'.length = (e.remaining here).toNat ∧ q'.targetSpeed = a.targetSpeed e ∧ q'.endSpeed = a.setup.floor) ∧
      s.otherAxes t ax ∧ t = { s with axes := t.axes })

/-- STOP_AXIS with flush 0, HOLD, and ADVANCE without FLY on a RUNNING LINEAR move or JOG that is above the floor
speed: the axis enters STOPPING with cause REQUEST, to end the order STOPPED or ADVANCED,
or HOLDING, on a deceleration at the stop decel, or of HOLD and ADVANCE at the order's own, or, where that would pass
the target or edge, at the deceleration that reaches the floor speed exactly on it; no order ends yet (R54, R61, R62,
R64, R68, R73, R87). STOP_AXIS and HOLD drop a binding: the bound mark is cleared and the fly outcome becomes
FLY_DECLINED 5; an ADVANCE on a bound pair makes no ramp (R60, R65). -/
def Obligations.StopRampBoundByTarget : Prop :=
  ∀ (s : State) (ax : AxisIx) (p : Params) (e : Entry) (es : List Entry) (k : ControlKind) (rate : Nat),
    (k = .stopAxis ∧ p.p1 = 0 ∧ rate = (s.axis ax).setup.stopDecel) ∨
      (k = .hold ∧ rate = rateOr e.params.p4 (s.axis ax).setup.decel) ∨
      (k = .advance ∧ e.opts.fly = false ∧ rate = rateOr e.params.p4 (s.axis ax).setup.decel ∧
        ∀ n more, es = n :: more → n.bound = false) →
    (s.axis ax).state = .running → (s.axis ax).list = e :: es → e.kind.moves = true →
    e.opts.smooth = false →
    sqOf (s.axis ax).setup.floor < (s.axis ax).prof.speedSq → 0 < rate →
    (s.axis ax).prof.dir = e.dir → -2147483647 ≤ e.target → e.target ≤ 2147483647 →
    0 < e.remaining (s.axis ax).commanded.toInt →
    ∃ t, s.carryOut k (.axis ax) p = .done t ∧
      (k = .hold → (t.axis ax).state = .holding ∧ (t.axis ax).stopCause = .none) ∧
      (k ≠ .hold → (t.axis ax).state = .stopping ∧ (t.axis ax).stopCause = .request ∧
        (t.axis ax).rampEnd = if k = .advance then .advanced else .stopped) ∧
      ((∀ n more, es = n :: more → n.bound = false) → (t.axis ax).list = e :: es) ∧
      (∀ n more, es = n :: more → n.bound = true → (t.axis ax).list =
        { e with fly := .declined 5, decided := true } :: { n with bound := false } :: more) ∧
      (t.axis ax).prof.phase = .decelerating ∧
      (t.axis ax).prof.speedSq = (s.axis ax).prof.speedSq ∧
      (∃ q, (t.axis ax).prof.plan = some q ∧ q.moved = 0 ∧
        q.length = min (linearLen (s.axis ax).prof.speedSq (sqOf (s.axis ax).setup.floor) rate)
          (e.remaining (s.axis ax).commanded.toInt).toNat ∧
        q.sqAt q.length = sqOf (s.axis ax).setup.floor) ∧
      (∀ j, j ≠ ax → t.axis j = s.axis j) ∧ t = { s with axes := t.axes }

/-- OPEN_GATE and CLOSE_GATE (R127, R129): opening an open gate and closing a closed one change nothing; a gate with
no order waiting for it just opens; closing an open gate closes that gate alone. Of DWELLs that wait for a gate that
opens, every observing one starts, and the earliest consuming one, which closes the gate again; the other consuming
ones keep their places, and no other gate, axis or waiting record is touched. -/
def Obligations.GatesOpenAndClose : Prop :=
  ∀ (s : State) (g : Fin 16) (p : Params), p.p1.toNat = g.val →
    (s.gateOpen g = true → s.carryOut .openGate .module p = .done s) ∧
    (s.gateOpen g = false → (∀ ax, (g, ax) ∉ s.waiting) →
      s.carryOut .openGate .module p = .done { s with gates := s.gates.set g true }) ∧
    s.carryOut .closeGate .module p = .done { s with gates := s.gates.set g false } ∧
    (s.gateOpen g = false → { s with gates := s.gates.set g false } = s) ∧
    (∀ (entry : AxisIx → Entry) (record : List AxisIx) (released : AxisIx → Bool), s.gateOpen g = false →
      (s.waiting.map (·.2)).Nodup → record = (s.waiting.filter (fun x => x.1 == g)).map (·.2) →
      (∀ ax ∈ record, (s.axis ax).state = .waiting ∧ (s.axis ax).list = [entry ax] ∧ (entry ax).kind = .dwell ∧
        (entry ax).params.p1 ≠ 0) →
      (∀ ax, released ax = true ↔ ax ∈ record ∧ ((entry ax).opts.observe = true ∨
        record.find? (fun j => !(entry j).opts.observe) = some ax)) →
      ∃ t, s.carryOut .openGate .module p = .done t ∧
        t.gateOpen g = record.all (fun ax => (entry ax).opts.observe) ∧
        t.waiting = s.waiting.filter (fun x => !released x.2) ∧
        (∀ ax, released ax = true → (t.axis ax).state = .running ∧ ∃ e', (t.axis ax).list = [e'] ∧
          e'.cell = (entry ax).cell ∧ e'.status = .active ∧ e'.dwellLeft = (entry ax).params.p1.toNat) ∧
        (∀ ax, released ax = false → t.axis ax = s.axis ax) ∧
        (∀ h : Fin 16, h ≠ g → t.gateOpen h = s.gateOpen h))

/-- CANCEL_WATCH: the watch leaves the table and ends CANCELLED with the values of its last firing and the time since it
was armed, its cell linked with RETURN where it has NOTIFY; where no watch stands in the cell, the order is refused
NOT_APPLICABLE 3 (R19, R123). CLEAR_FAULT of an axis and of the module, case by case in the order the rules give; a
module CLEAR_FAULT in SILENT returns the module to RUNNING and loads supervision (R166, R167, R172). -/
def Obligations.CancelAndClear : Prop :=
  (∀ (s : State) (p : Params),
    (p.p1.toNat ∉ s.watches.map (·.cell) → s.carryOut .cancelWatch .module p = .refused .notApplicable 3) ∧
    (∀ v, v ∈ s.watches → v.cell = p.p1.toNat → v.cell < 480 → s.memoryWf = true → s.onePlace →
      ∃ t, s.carryOut .cancelWatch .module p = .done t ∧
        t.watches = s.watches.filter (fun x => x.cell != v.cell) ∧ t.chain = s.chain ++ [v.cell] ∧
        t.readByte (0x800 + 64 * v.cell) = 6 ∧
        t.resultReads v.cell (bytes4 7 0 (32 * v.lastNA.toNat) 0) (BitVec.ofNat 32 v.fireCount) v.lastCmd v.lastFb
          (BitVec.ofNat 32 v.sinceArm) ∧
        (∀ a, ¬ mayWrite s v.cell a → t.readByte a = s.readByte a) ∧
        t.causes = { s.causes with ret := s.causes.ret || v.notify } ∧
        t = { s with mem := t.mem, watches := t.watches, chain := t.chain, causes := t.causes })) ∧
  ((∀ (s : State) (ax : AxisIx) (p : Params),
    (s.faultEntry (.axis ax) = none → s.carryOut .clearFault (.axis ax) p = .refused .notApplicable 1) ∧
    (s.faultEntry (.axis ax) ≠ none →
      ((s.axis ax).state = .stopping → (s.axis ax).stopCause = .fault →
        s.carryOut .clearFault (.axis ax) p = .refused .busy 0) ∧
      (¬ ((s.axis ax).state = .stopping ∧ (s.axis ax).stopCause = .fault) →
        ((s.axis ax).alarmActive = true ∨
            (0 < (s.axis ax).setup.followLimit ∧ (s.axis ax).setup.followLimit < (s.axis ax).followMagnitude) →
          s.carryOut .clearFault (.axis ax) p = .refused .stillPresent 0) ∧
        ((s.axis ax).alarmActive = false →
            ((s.axis ax).setup.followLimit = 0 ∨ (s.axis ax).followMagnitude ≤ (s.axis ax).setup.followLimit) →
          (s.axis ax).state = .faulted →
          ∃ t, s.carryOut .clearFault (.axis ax) p = .done t ∧
            t.faults = s.faults.filter (fun e => e.scope != .axis ax) ∧
            t.axis ax = { s.axis ax with state := .idle, stopCause := .none } ∧ (t.axis ax).driveEnable = true ∧
            (∀ j, j ≠ ax → t.axis j = s.axis j) ∧ t = { s with faults := t.faults, axes := t.axes })))) ∧
  (∀ (s : State) (p : Params),
    (s.faultEntry .module = none → s.carryOut .clearFault .module p = .refused .notApplicable 1) ∧
    (s.faultEntry .module ≠ none →
      (s.modState ≠ .silent → s.carryOut .clearFault .module p =
        .done { s with faults := s.faults.filter (fun e => e.scope != .module) }) ∧
      (s.modState = .silent → s.carryOut .clearFault .module p =
        .done { s with
          faults := s.faults.filter (fun e => e.scope != .module)
          modState := .running
          supTimer := if s.supInterval = 0 then none else some s.supInterval }))))

/-! ### Faults (chapter 9) -/

/-- A report to the Fault Unit. For a scope without an entry it appends one with count 1 and the module clock as its
time, and sets FAULT (R160). For a scope with an entry it sets the last code and raises the count up to 255, keeps
the rest of the entry, and sets FAULT where the count changes (R161). -/
def Obligations.FaultsRecorded : Prop :=
  ∀ (s : State) (sc : Scope) (code detail cell : Nat),
    ((∀ e ∈ s.faults, e.scope ≠ sc) →
      s.recordFault sc code detail cell = { s with
        faults := s.faults ++ [{ scope := sc, code := code, detail := detail, cell := cell, time := s.clock,
                                 count := 1, lastCode := code }]
        causes := { s.causes with fault := true } }) ∧
    (∀ before e after, s.faults = before ++ e :: after → e.scope = sc →
      (∀ x ∈ before ++ after, x.scope ≠ sc) →
      (e.count < 255 → s.recordFault sc code detail cell = { s with
        faults := before ++ { e with lastCode := code, count := e.count + 1 } :: after
        causes := { s.causes with fault := true } }) ∧
      (255 ≤ e.count → s.recordFault sc code detail cell = { s with
        faults := before ++ { e with lastCode := code } :: after }))

/-! ### Axes (chapters 3 to 5, 7) -/

/-- An output pulse moves the commanded position by one in the direction of the pulses, within the 32-bit range, and
no other position; its leading edge stands on Pulse B in CW_CCW mode toward minus, else on Pulse A (log 26); setup,
inputs and everything outside the axes' work stay, and only the module's parts of held cells are written (R2, R91,
R93). What the pulse sets off, on an axis RUNNING a move, where no watch, limit, alarm, following limit or pending
replan meets it: short of the end of the plan and its commit point the speed is the one the plan gives, within floor
speed and max speed (R72, R73, R92); at the end of the plan the move ends COMPLETED with its fly outcome, at standstill
(R53), or, before a bound successor, passes to it at the speed of that moment, without a floor step (R59, R81); at the
commit point of a move with FLY the decision is taken: the fly with the second entry bound, its consuming claim closing
its gate, and the move planned to the junction speed, or a decline with the reason of the first condition that fails
(R57 to R59). -/
def Obligations.OutputPulseMovesPosition : Prop :=
  (∀ (s : State) (ax : AxisIx) (r : Race), s.onePlace → s.calm = true → r.collects = [] →
    (s.axis ax).moving = true →
    (s.axis ax).state ≠ .disabled → (s.axis ax).state ≠ .faulted →
    -2147483648 ≤ (s.axis ax).commanded.toInt + (s.axis ax).prof.dir.sign →
    (s.axis ax).commanded.toInt + (s.axis ax).prof.dir.sign ≤ 2147483647 →
    ∃ t, exec (.outputPulse ax r) s = .next t ∧
      (t.axis ax).commanded.toInt = (s.axis ax).commanded.toInt + (s.axis ax).prof.dir.sign ∧
      (t.axis ax).feedback = (s.axis ax).feedback ∧
      (if (s.axis ax).setup.pulseMode = .cwCcw ∧ (s.axis ax).prof.dir = .minus then
          (t.axis ax).prof.edgesA = (s.axis ax).prof.edgesA ∧
            (t.axis ax).prof.edgesB = (s.axis ax).prof.edgesB + 1
        else (t.axis ax).prof.edgesA = (s.axis ax).prof.edgesA + 1 ∧
          (t.axis ax).prof.edgesB = (s.axis ax).prof.edgesB) ∧
      (∀ j, j ≠ ax → (t.axis j).prof.edgesA = (s.axis j).prof.edgesA ∧
        (t.axis j).prof.edgesB = (s.axis j).prof.edgesB) ∧
      (∀ j, j ≠ ax → (t.axis j).commanded = (s.axis j).commanded ∧ (t.axis j).feedback = (s.axis j).feedback) ∧
      (∀ j, (t.axis j).setup = (s.axis j).setup ∧ (t.axis j).inputs = (s.axis j).inputs) ∧
      s.untouched t ∧ t.events = s.events ∧ s.chain <+: t.chain ∧
      (∀ a, t.readByte a ≠ s.readByte a → ∃ n ∈ s.held, inModulePart n a)) ∧
  (∀ (s : State) (ax : AxisIx) (r : Race) (a : Axis) (e : Entry) (es : List Entry) (q : Plan) (here : Int) (sq : Nat),
    s.memoryWf = true → s.onePlace → s.quiet = true → s.watches = [] → a = s.axis ax → a.state = .running →
    a.moving = true → a.undisturbed → a.list = e :: es → e.status = .active → e.cell < 480 →
    e.kind.positional = true → a.ref.phase = .none → a.ref.rampStop = false → a.prof.pendingReplan = false →
    a.prof.plan = some q → here = a.commanded.toInt + a.prof.dir.sign → -2147483648 ≤ here → here ≤ 2147483647 →
    sq = max (sqOf a.setup.floor) (min (sqOf a.setup.maxSpeed) (q.sqAt (q.moved + 1))) →
    -- along the plan
    (q.moved + 1 < q.length →
      e.opts.fly = false ∨ e.decided = true ∨ (∀ c, q.commitAt = some c → q.moved + 1 < c) →
      ∃ t, exec (.outputPulse ax r) s = .next t ∧ (t.axis ax).state = .running ∧ (t.axis ax).list = e :: es ∧
        (t.axis ax).commanded.toInt = here ∧ (t.axis ax).prof.speedSq = sq ∧
        (t.axis ax).prof.accel = q.accelAt (q.moved + 1) ∧ (t.axis ax).prof.phase = q.phaseAt (q.moved + 1) ∧
        (t.axis ax).prof.plan = some { q with moved := q.moved + 1 } ∧
        (∀ j, j ≠ ax → t.axis j = s.axis j) ∧ t = { s with axes := t.axes }) ∧
    -- at its end
    (q.moved + 1 = q.length → e.opts.fly = false ∨ e.decided = true →
      (es = [] → ∃ t, exec (.outputPulse ax r) s = .next t ∧ (t.axis ax).state = .idle ∧ (t.axis ax).list = [] ∧
        (t.axis ax).moving = false ∧ (t.axis ax).prof.speedSq = 0 ∧ (t.axis ax).prof.plan = none ∧
        t.endReads e.cell (bytes4 1 0 e.fly.bits 0) 0 (BitVec.ofInt 32 here) a.feedback (BitVec.ofNat 32 e.elapsed) ∧
        t.chain = s.chain ++ [e.cell] ∧ t.causes = { s.causes with ret := s.causes.ret || e.opts.notify } ∧
        (∀ b, ¬ mayWrite s e.cell b → t.readByte b = s.readByte b) ∧
        (∀ j, j ≠ ax → t.axis j = s.axis j) ∧
        t = { s with mem := t.mem, chain := t.chain, causes := t.causes, axes := t.axes }) ∧
      (∀ n more target, es = n :: more → n.bound = true → n.kind = .moveAbs → n.opts.fly = false →
        n.cell < 480 → target = n.params.p1.toInt → a.allowsTarget .moveAbs target →
        0 < (target - here) * a.prof.dir.sign →
        ∃ t, exec (.outputPulse ax r) s = .next t ∧ (t.axis ax).state = .running ∧
          t.endReads e.cell (bytes4 1 0 e.fly.bits 0) 0 (BitVec.ofInt 32 here) a.feedback
            (BitVec.ofNat 32 e.elapsed) ∧
          t.readByte (0x800 + 64 * n.cell) = 3 ∧
          (∃ n', (t.axis ax).list = n' :: more ∧ n'.cell = n.cell ∧ n'.status = .active ∧ n'.bound = false ∧
            n'.fly = .none ∧ n'.target = target) ∧
          (t.axis ax).prof.speedSq = sq ∧ (t.axis ax).prof.dir = a.prof.dir ∧ (t.axis ax).moving = true ∧
          (∃ q', (t.axis ax).prof.plan = some q' ∧ q'.moved = 0 ∧ q'.startSq = sq ∧
            q'.length = ((target - here) * a.prof.dir.sign).toNat) ∧
          t.chain = s.chain ++ [e.cell] ∧ t.gates = s.gates ∧ (∀ j, j ≠ ax → t.axis j = s.axis j))) ∧
    -- at the commit point
    (q.moved + 1 < q.length → e.opts.fly = true → e.decided = false → q.commitAt = some (q.moved + 1) →
      a.prof.dir = e.dir → 0 < e.remaining here →
      (∀ reason, s.flyFails a.setup e es.head? e.target = some reason →
        ∃ t, exec (.outputPulse ax r) s = .next t ∧ (t.axis ax).state = .running ∧
          (t.axis ax).list = { e with fly := .declined reason, decided := true } :: es ∧
          (t.axis ax).prof.plan = some { q with moved := q.moved + 1 } ∧ (t.axis ax).prof.speedSq = sq ∧
          (∀ j, j ≠ ax → t.axis j = s.axis j) ∧ t = { s with axes := t.axes }) ∧
      (∀ n more, es = n :: more → s.flyFails a.setup e (some n) e.target = none →
        ∃ t, exec (.outputPulse ax r) s = .next t ∧ (t.axis ax).state = .running ∧
          (t.axis ax).list = { e with fly := .taken, decided := true } :: { n with bound := true } :: more ∧
          (∃ q', (t.axis ax).prof.plan = some q' ∧ q'.moved = 0 ∧ q'.startSq = sq ∧
            q'.endSpeed = a.junctionSpeed e n (a.targetSpeed e) ∧ q'.length = (e.remaining here).toNat) ∧
          t.gates = (if n.opts.gated = true ∧ n.opts.observe = false then s.gates.set n.gate false else s.gates) ∧
          (∀ j, j ≠ ax → t.axis j = s.axis j) ∧ t = { s with axes := t.axes, gates := t.gates })))

/-- The pulse that ends a ramp, where no watch, limit, alarm or following limit meets it. Standstill of a STOPPING axis
ends its one order with the end its ramp carries, STOPPED, ADVANCED or LIMITED, and the axis is IDLE (R54, R55, R61,
R64, R70, R87). A HOLDING axis is HELD, its order still at the head, unless it stands on the target or edge: there a
move is COMPLETED and a JOG LIMITED (R54, R62). A fault ramp leaves the axis FAULTED (R69, R163). A RUNNING JOG follows
its plan, and where it reaches the decel point for its edge it is STOPPING with cause LIMIT_EDGE, to end LIMITED (R55,
R79). -/
def Obligations.RampsEnd : Prop :=
  ∀ (s : State) (ax : AxisIx) (r : Race) (a : Axis) (q : Plan) (here : Int),
    s.memoryWf = true → s.onePlace → s.quiet = true → s.watches = [] → a = s.axis ax → a.moving = true →
    a.undisturbed → a.ref.phase = .none → a.ref.rampStop = false → a.prof.plan = some q →
    here = a.commanded.toInt + a.prof.dir.sign → -2147483648 ≤ here → here ≤ 2147483647 →
    (q.moved + 1 = q.length →
      (∀ e, a.list = [e] → e.status = .active → e.kind.moves = true → e.cell < 480 →
        (a.state = .stopping → a.stopCause ≠ .fault →
          a.rampEnd = .stopped ∨ a.rampEnd = .advanced ∨ a.rampEnd = .limited →
          ∃ t, exec (.outputPulse ax r) s = .next t ∧
            s.endsAlone t ax e (match a.rampEnd with
              | .advanced => 2
              | .limited => 4
              | _ => 3) (BitVec.ofInt 32 here) ∧
            (t.axis ax).commanded.toInt = here ∧ (t.axis ax).prof.speedSq = 0) ∧
        (a.state = .holding → here = e.target →
          ∃ t, exec (.outputPulse ax r) s = .next t ∧
            s.endsAlone t ax e (if e.kind = .jog then 4 else 1) (BitVec.ofInt 32 here) ∧
            (t.axis ax).commanded.toInt = here ∧ (t.axis ax).prof.speedSq = 0)) ∧
      (∀ e es, a.list = e :: es → a.state = .holding → here ≠ e.target →
        ∃ t, exec (.outputPulse ax r) s = .next t ∧ (t.axis ax).state = .held ∧ (t.axis ax).stopCause = .none ∧
          (t.axis ax).list = e :: es ∧ (t.axis ax).moving = false ∧ (t.axis ax).prof.speedSq = 0 ∧
          (t.axis ax).prof.plan = none ∧ (t.axis ax).commanded.toInt = here ∧ s.otherAxes t ax ∧
          t = { s with axes := t.axes }) ∧
      (a.list = [] → a.state = .stopping → a.stopCause = .fault →
        ∃ t, exec (.outputPulse ax r) s = .next t ∧ (t.axis ax).state = .faulted ∧ (t.axis ax).stopCause = .fault ∧
          (t.axis ax).pendingFault = false ∧ (t.axis ax).list = [] ∧ (t.axis ax).moving = false ∧
          (t.axis ax).driveEnable = false ∧ (t.axis ax).commanded.toInt = here ∧ s.otherAxes t ax ∧
          t = { s with axes := t.axes })) ∧
    (∀ e es sq, q.moved + 1 < q.length → a.list = e :: es → e.kind = .jog → a.state = .running →
      a.prof.pendingReplan = false →
      sq = max (sqOf a.setup.floor) (min (sqOf a.setup.maxSpeed) (q.sqAt (q.moved + 1))) →
      ∃ t, exec (.outputPulse ax r) s = .next t ∧ (t.axis ax).list = e :: es ∧
        (t.axis ax).commanded.toInt = here ∧ (t.axis ax).prof.speedSq = sq ∧
        (t.axis ax).prof.plan = some { q with moved := q.moved + 1 } ∧
        (q.moved + 1 < q.reportAt → (t.axis ax).state = .running ∧
          (t.axis ax).prof.phase = q.phaseAt (q.moved + 1)) ∧
        (q.reportAt ≤ q.moved + 1 → (t.axis ax).state = .stopping ∧ (t.axis ax).stopCause = .limitEdge ∧
          (t.axis ax).rampEnd = .limited ∧ (t.axis ax).prof.phase = .decelerating) ∧
        s.otherAxes t ax ∧ t = { s with axes := t.axes })

/-- The encoder inputs. QUAD4 counts one for every edge of one phase, up where A leads B, and none where both change;
UPDOWN counts up on A's leading edge and down on B's. A DISABLED axis keeps its count; else the feedback position
moves by the counts, modulo 2^32, and no other position moves (R94). Which cycle of the levels has A leading, that a
leading edge is low to high, and the order of two counts of one event are the model's reading (log 28). A change of a
limit, reference, index, drive ready or drive alarm input: the level is stored, the other inputs, the encoder phases
and every setup stay, and so does all that an input does not reach (R96, R185). -/
def Obligations.InputsTaken : Prop :=
  (∀ a b : Bool, encoderCounts .quad4 a b a b = [] ∧ encoderCounts .quad4 a b (!a) (!b) = [] ∧
    encoderCounts .quad4 a b (!a) b = [if a = b then 1 else -1] ∧
    encoderCounts .quad4 a b a (!b) = [if a = b then -1 else 1]) ∧
  (∀ a b a' b' : Bool, encoderCounts .upDown a b a' b' =
    (if a = false ∧ a' = true then [1] else []) ++ (if b = false ∧ b' = true then [-1] else [])) ∧
  (∀ (s : State) (ax : AxisIx) (a b : Bool) (r : Race), s.onePlace → s.calm = true → r.collects = [] →
    ∃ t, exec (.encoderEdge ax a b r) s = .next t ∧
      (t.axis ax).encA = a ∧ (t.axis ax).encB = b ∧
      (t.axis ax).feedback = (if (s.axis ax).state = .disabled then (s.axis ax).feedback
        else (s.axis ax).feedback + BitVec.ofInt 32
          (encoderCounts (s.axis ax).setup.encMode (s.axis ax).encA (s.axis ax).encB a b).sum) ∧
      (t.axis ax).commanded = (s.axis ax).commanded ∧
      (∀ j, j ≠ ax → (t.axis j).commanded = (s.axis j).commanded ∧ (t.axis j).feedback = (s.axis j).feedback ∧
        (t.axis j).encA = (s.axis j).encA ∧ (t.axis j).encB = (s.axis j).encB) ∧
      (∀ j, (t.axis j).setup = (s.axis j).setup ∧ (t.axis j).inputs = (s.axis j).inputs) ∧
      s.untouched t ∧ t.events = s.events ∧ s.chain <+: t.chain ∧
      (∀ a, t.readByte a ≠ s.readByte a → ∃ n ∈ s.held, inModulePart n a)) ∧
  (∀ (c : Instr) (ax : AxisIx) (f : Inputs → Inputs) (s : State), inputCommand c = some (ax, f) → s.onePlace →
    uncollected c →
    ∃ t, exec c s = .next t ∧ (t.axis ax).inputs = f (s.axis ax).inputs ∧
      (∀ j, j ≠ ax → (t.axis j).inputs = (s.axis j).inputs) ∧
      (∀ j, (t.axis j).setup = (s.axis j).setup ∧ (t.axis j).encA = (s.axis j).encA ∧
        (t.axis j).encB = (s.axis j).encB) ∧
      t.events = s.events ∧ s.chain <+: t.chain ∧ s.untouched t ∧
      (∀ a, t.readByte a ≠ s.readByte a → ∃ n ∈ s.held, inModulePart n a))

/-- The following error (R95): the commanded position less the feedback position times the ratio denominator over
the numerator, truncated toward zero, saturated to 32 bits; it is computed anew wherever a position changes, shown
signed in the axis image, and observed by watches as a magnitude. -/
def Obligations.FollowingErrorComputed : Prop :=
  (∀ (st : AxisSetup) (cmd fb : Word), (followErrorOf st cmd fb).toInt =
    max (-2147483648) (min 2147483647 (cmd.toInt - Int.tdiv (fb.toInt * st.ratioDen) st.ratioNum))) ∧
  (∀ st : AxisSetup, st.ratioNum = 4 → st.ratioDen = 1 → followErrorOf st 1000 3998 = 1) ∧
  (∀ (s : State) (ax : AxisIx) (v : Word),
    ((s.moveCommanded ax v).axis ax).followErr = followErrorOf (s.axis ax).setup v (s.axis ax).feedback ∧
    ((s.moveFeedback ax v).axis ax).followErr = followErrorOf (s.axis ax).setup (s.axis ax).commanded v) ∧
  (∀ (s : State) (ax : AxisIx) (cmd fb : Word) (b : Bool),
    ((s.assignPositions ax cmd fb b).axis ax).followErr = followErrorOf (s.axis ax).setup cmd fb) ∧
  (∀ (s : State) (ax : AxisIx), (0x298 + 0x100 * ax.val, (s.axis ax).followErr) ∈ s.imageWords) ∧
  (∀ (s : State) (v : Watch) (ax : AxisIx), v.quantity = .followingError ax →
    s.sample v = .value ((s.axis ax).followErr.toInt.natAbs : Nat))

/-- A RUNNING move or JOG in motion meets an active limit input in its direction, a drive ready that becomes
inactive, or a drive alarm, not found before: the axis is FAULTED, or on its fault ramp, with an empty list, an entry
in the annunciation queue and FAULT set (R97, R102, R104, R105, R163). Where one of the three is found alone, the entry
has its code and detail, 201 with 1 for plus and 2 for minus, 206 and 205 with 0, and the cell of the order, which ends
FAULTED with the code as its reason; the reaction is that of setup field 17 for the limit and ABRUPT for the others
(R69, R87). A following error that an encoder edge takes above a following limit that is not 0, in RUNNING or SILENT, is
recorded as 204 with detail 0 and the reaction of setup field 18: an IDLE axis is FAULTED at once, a moving one reacts
as to the others; in STOPPED and STARTING it is not checked (R98). -/
def Obligations.InputFaultsMotion : Prop :=
  (∀ (c : Instr) (ax : AxisIx) (f : Inputs → Inputs) (s : State) (e : Entry) (es : List Entry) (a : Axis),
    inputCommand c = some (ax, f) → s.calm = true → s.watches = [] → s.faultEntry (.axis ax) = none →
    f (s.axis ax).inputs ≠ (s.axis ax).inputs →
    a = { s.axis ax with inputs := f (s.axis ax).inputs } →
    (s.axis ax).state = .running → (s.axis ax).moving = true → (s.axis ax).list = e :: es → e.status = .active →
    e.kind.moves = true → (s.axis ax).ref.phase = .none →
    ((a.limitActive a.prof.dir = true ∧ a.seen.limit = false) ∨ (a.readyActive = false ∧ a.seen.ready = false) ∨
      (a.alarmActive = true ∧ a.seen.alarm = false)) →
    ∃ t, exec c s = .next t ∧ t.faultTaken ax ∧ (t.axis ax).inputs = f (s.axis ax).inputs) ∧
  (∀ (c : Instr) (ax : AxisIx) (f : Inputs → Inputs) (s : State) (e : Entry) (a : Axis) (code detail : Nat)
      (reaction : Reaction),
    inputCommand c = some (ax, f) → uncollected c → s.memoryWf = true → s.onePlace → s.quiet = true →
    s.watches = [] → s.faultEntry (.axis ax) = none → f (s.axis ax).inputs ≠ (s.axis ax).inputs →
    a = { s.axis ax with inputs := f (s.axis ax).inputs } → a.state = .running → a.moving = true → a.list = [e] →
    e.status = .active → e.kind.moves = true → e.opts.smooth = false → e.cell < 480 → a.ref.phase = .none →
    a.setup.followLimit = 0 →
    ((a.limitActive a.prof.dir = true ∧ a.seen.limit = false ∧ a.readyActive = true ∧ a.alarmActive = false ∧
        code = 201 ∧ detail = (if a.prof.dir = .plus then 1 else 2) ∧ reaction = a.setup.limitReaction) ∨
      (a.limitActive a.prof.dir = false ∧ a.readyActive = false ∧ a.seen.ready = false ∧ a.alarmActive = false ∧
        code = 206 ∧ detail = 0 ∧ reaction = .abrupt) ∨
      (a.limitActive a.prof.dir = false ∧ a.readyActive = true ∧ a.alarmActive = true ∧ a.seen.alarm = false ∧
        code = 205 ∧ detail = 0 ∧ reaction = .abrupt)) →
    ∃ t, exec c s = .next t ∧ s.reports t ax code detail e.cell ∧ (t.axis ax).reacts a reaction ∧
      t.endReads e.cell (bytes4 6 code e.fly.bits 0) 0 a.commanded a.feedback (BitVec.ofNat 32 e.elapsed) ∧
      t.chain = s.chain ++ [e.cell] ∧ (∀ b, ¬ mayWrite s e.cell b → t.readByte b = s.readByte b) ∧
      s.otherAxes t ax ∧ t = { s with
        mem := t.mem, chain := t.chain, causes := t.causes, faults := t.faults, axes := t.axes }) ∧
  (∀ (s : State) (ax : AxisIx) (a' b' : Bool) (r : Race) (x y : Axis) (d : Int) (g : Word),
    r.collects = [] → s.quiet = true → s.watches = [] → x = s.axis ax → x.state ≠ .disabled →
    encoderCounts x.setup.encMode x.encA x.encB a' b' = [d] → g = x.feedback + BitVec.ofInt 32 d →
    y = { x with feedback := g, followErr := followErrorOf x.setup x.commanded g, encA := a', encB := b' } →
    (s.modState = .stopped ∨ s.modState = .starting → ∃ t, exec (.encoderEdge ax a' b' r) s = .next t ∧
      t.axis ax = { y with seen := { y.seen with follow := false } } ∧ s.otherAxes t ax ∧
      t = { s with axes := t.axes }) ∧
    (s.modState = .running ∨ s.modState = .silent → 0 < x.setup.followLimit →
      x.setup.followLimit < y.followErr.toInt.natAbs → x.seen.follow = false → s.faultEntry (.axis ax) = none →
      (x.state = .idle → x.list = [] → x.moving = false →
        ∃ t, exec (.encoderEdge ax a' b' r) s = .next t ∧ s.reports t ax 204 0 0xFFFF ∧
          (t.axis ax).state = .faulted ∧ (t.axis ax).stopCause = .fault ∧ (t.axis ax).list = [] ∧
          (t.axis ax).feedback = g ∧ (t.axis ax).commanded = x.commanded ∧ s.otherAxes t ax ∧
          t = { s with causes := t.causes, faults := t.faults, axes := t.axes }) ∧
      (∀ e, s.memoryWf = true → s.onePlace → x.state = .running → x.moving = true → x.list = [e] →
        e.status = .active → e.kind.moves = true → e.opts.smooth = false → e.cell < 480 → x.ref.phase = .none →
        x.limitActive x.prof.dir = false → x.readyActive = true → x.alarmActive = false →
        ∃ t, exec (.encoderEdge ax a' b' r) s = .next t ∧ s.reports t ax 204 0 e.cell ∧
          (t.axis ax).reacts y x.setup.followReaction ∧
          t.endReads e.cell (bytes4 6 204 e.fly.bits 0) 0 x.commanded g (BitVec.ofNat 32 e.elapsed) ∧
          t.chain = s.chain ++ [e.cell] ∧ (∀ b, ¬ mayWrite s e.cell b → t.readByte b = s.readByte b) ∧
          s.otherAxes t ax ∧ t = { s with
            mem := t.mem, chain := t.chain, causes := t.causes, faults := t.faults, axes := t.axes })))

/-- The reference edge, met in CREEP without an index or in INDEX. Before the abrupt stop is complete, the counters
are latched and the pulses have ceased; once it is complete and nothing follows, both positions are assigned from
P6, the referenced flag is set and the order has ended COMPLETED (R140 to R144). Whether the stop of this axis is
complete within the command or later is left open, and the model allows both (log 16). -/
def Obligations.ReferenceEdge : Prop :=
  ∀ (c : Instr) (ax : AxisIx) (level : Bool) (r : Race) (s : State) (e : Entry) (a : Axis),
    s.memoryWf = true → s.quiet = true → s.watches = [] → (s.axis ax).state = .running →
    (s.axis ax).list = [e] → e.status = .active → e.kind = .reference → e.cell < 480 → s.chain = [] →
    (s.axis ax).setup.followLimit = 0 → (s.axis ax).alarmActive = false → (s.axis ax).moving = true →
    ((c = .referenceSwitchChange ax level r ∧ a = { s.axis ax with inputs := { (s.axis ax).inputs with reference := level } } ∧
        (s.axis ax).referenceActive = false ∧ a.referenceActive = true ∧ (s.axis ax).ref.phase = .creep ∧
        e.params.p4 = 0 ∧ e.params.p5.extractLsb' 16 16 = 0) ∨
      (c = .indexInputChange ax level r ∧ a = { s.axis ax with inputs := { (s.axis ax).inputs with index := level } } ∧
        (s.axis ax).indexActive = false ∧ a.indexActive = true ∧ (s.axis ax).ref.phase = .index)) →
    (ax ∉ r.settle → ∃ t, exec c s = .next t ∧ (t.axis ax).state = .running ∧ (t.axis ax).list = [e] ∧
      (t.axis ax).moving = false ∧ (t.axis ax).prof.speedSq = 0 ∧ (t.axis ax).ref.assignDue = true ∧
      (t.axis ax).ref.latchedCmd = (s.axis ax).commanded ∧ (t.axis ax).ref.latchedFb = (s.axis ax).feedback ∧
      (t.axis ax).commanded = (s.axis ax).commanded ∧ (t.axis ax).feedback = (s.axis ax).feedback ∧
      t.mem = s.mem ∧ (∀ j, j ≠ ax → t.axis j = s.axis j)) ∧
    (ax ∈ r.settle → e.params.p7 = 0 → ∃ t, exec c s = .next t ∧ (t.axis ax).state = .idle ∧
      (t.axis ax).list = [] ∧ (t.axis ax).commanded = e.params.p6 ∧
      (t.axis ax).feedback = BitVec.ofInt 32
        (Int.tdiv (e.params.p6.toInt * (s.axis ax).setup.ratioNum) (s.axis ax).setup.ratioDen) ∧
      (t.axis ax).referenced = true ∧ t.chain = [e.cell] ∧ t.readByte (0x800 + 64 * e.cell) = 6 ∧
      t.readWord (0x800 + 64 * e.cell + 0x2C) = 1 ∧ (∀ j, j ≠ ax → t.axis j = s.axis j))

/-- What ends or turns the phases of a running reference run (R134, R137 to R139, R143). An input change in APPROACH that
makes the search signal active, or with P4 0 the search limit, begins the ramp-stop, LINEAR at the default decel, bound
by no target but the 32-bit range (R87, R136). In SEEK_BACK the reference switch becoming active sets the switch-seen
mark, and its becoming inactive with the mark set begins the ramp-stop. In CLEAR the search signal becoming inactive
stops the axis abruptly, and a PAUSE before CREEP follows. A pulse on the way moves the position alone, at the speed of
the phase (R92). The pulse that ends a ramp-stop brings standstill and a PAUSE: after APPROACH before CLEAR with the
search signal active, else before SEEK_BACK, with P4 1 before CREEP; after SEEK_BACK before CREEP. At the edge of CREEP
with index use 1 INDEX begins without a stop, where the index mark is not active (R140, R141). Pauses of 0 ms are not
made and are not stated here. -/
def Obligations.ReferencePhases : Prop :=
  (∀ (c : Instr) (ax : AxisIx) (f : Inputs → Inputs) (s : State) (e : Entry) (es : List Entry) (a : Axis),
    inputCommand c = some (ax, f) → uncollected c → s.quiet = true → s.watches = [] →
    f (s.axis ax).inputs ≠ (s.axis ax).inputs → a = { s.axis ax with inputs := f (s.axis ax).inputs } →
    a.state = .running → a.moving = true → a.list = e :: es → e.kind = .reference → e.status = .active →
    a.ref.rampStop = false → a.readyActive = true → a.alarmActive = false → a.setup.followLimit = 0 →
    (a.ref.phase = .approach → a.canRamp a.setup.decel →
      a.searchActive e = true ∨ (e.params.p4 = 0 ∧ a.limitActive e.searchDir = true) →
      ∃ t, exec c s = .next t ∧ (t.axis ax).state = .running ∧ (t.axis ax).list = e :: es ∧
        (t.axis ax).ref = { a.ref with rampStop := true } ∧ (t.axis ax).ramps a a.setup.decel a.rangeBound ∧
        s.otherAxes t ax ∧ t = { s with axes := t.axes }) ∧
    (a.ref.phase = .seekBack → a.limitActive a.prof.dir = false →
      (a.referenceActive = true → ∃ t, exec c s = .next t ∧ (t.axis ax).state = .running ∧
        (t.axis ax).list = e :: es ∧ (t.axis ax).ref = { a.ref with switchSeen := true } ∧
        (t.axis ax).prof = a.prof ∧ s.otherAxes t ax ∧ t = { s with axes := t.axes }) ∧
      (a.referenceActive = false → a.ref.switchSeen = true → a.canRamp a.setup.decel →
        ∃ t, exec c s = .next t ∧ (t.axis ax).state = .running ∧ (t.axis ax).list = e :: es ∧
          (t.axis ax).ref = { a.ref with rampStop := true } ∧ (t.axis ax).ramps a a.setup.decel a.rangeBound ∧
          s.otherAxes t ax ∧ t = { s with axes := t.axes })) ∧
    (a.ref.phase = .clear → a.searchActive e = false → (e.params.p5.extractLsb' 0 16).toNat ≠ 0 →
      ∃ t, exec c s = .next t ∧ (t.axis ax).state = .running ∧ (t.axis ax).list = e :: es ∧
        (t.axis ax).moving = false ∧ (t.axis ax).prof.speedSq = 0 ∧ (t.axis ax).commanded = a.commanded ∧
        (t.axis ax).ref = { a.ref with
          phase := .pause, next := .creep, pauseTimer := some (e.params.p5.extractLsb' 0 16).toNat } ∧
        s.otherAxes t ax ∧ t = { s with axes := t.axes }) ∧
    (a.ref.phase = .creep → a.searchActive e = true → e.params.p5.extractLsb' 16 16 = 1 →
      a.limitActive a.prof.dir = false ∨ e.params.p4 ≠ 0 → a.indexActive = false →
      ∃ t, exec c s = .next t ∧ (t.axis ax).state = .running ∧ (t.axis ax).list = e :: es ∧
        (t.axis ax).ref.phase = .index ∧ (t.axis ax).ref.indexStart = a.commanded ∧ (t.axis ax).prof = a.prof ∧
        s.otherAxes t ax ∧ t = { s with axes := t.axes })) ∧
  (∀ (s : State) (ax : AxisIx) (r : Race) (e : Entry) (es : List Entry) (a : Axis) (here : Int),
    s.quiet = true → s.watches = [] → a = s.axis ax → a.state = .running → a.moving = true → a.undisturbed →
    a.list = e :: es → e.kind = .reference → e.status = .active → a.prof.pendingReplan = false →
    here = a.commanded.toInt + a.prof.dir.sign → -2147483648 ≤ here → here ≤ 2147483647 →
    (a.ref.phase ∈ [RefPhase.approach, .seekBack, .clear, .creep, .index] →
      (∀ q, a.prof.plan = some q → q.moved + 1 < q.length) →
      (a.ref.phase = .index → (here - a.ref.indexStart.toInt).natAbs < a.setup.indexSpan) →
      ∃ t, exec (.outputPulse ax r) s = .next t ∧ (t.axis ax).state = .running ∧ (t.axis ax).list = e :: es ∧
        (t.axis ax).commanded.toInt = here ∧ (t.axis ax).ref = a.ref ∧
        (t.axis ax).prof.plan = a.prof.plan.map (fun q => { q with moved := q.moved + 1 }) ∧
        (a.prof.plan = none → (t.axis ax).prof.speedSq = a.prof.speedSq) ∧
        (∀ q, a.prof.plan = some q → (t.axis ax).prof.speedSq =
          max (sqOf a.setup.floor) (min (sqOf a.setup.maxSpeed) (q.sqAt (q.moved + 1)))) ∧
        s.otherAxes t ax ∧ t = { s with axes := t.axes }) ∧
    (∀ q next, a.prof.plan = some q → q.moved + 1 = q.length → (e.params.p5.extractLsb' 0 16).toNat ≠ 0 →
      ((a.ref.phase = .approach ∧ next = if a.searchActive e then RefPhase.clear
          else if e.params.p4 = 0 then .seekBack else .creep) ∨ (a.ref.phase = .seekBack ∧ next = .creep)) →
      ∃ t, exec (.outputPulse ax r) s = .next t ∧ (t.axis ax).state = .running ∧ (t.axis ax).list = e :: es ∧
        (t.axis ax).commanded.toInt = here ∧ (t.axis ax).moving = false ∧ (t.axis ax).prof.speedSq = 0 ∧
        (t.axis ax).ref = { a.ref with
          phase := .pause, next := next, pauseTimer := some (e.params.p5.extractLsb' 0 16).toNat,
          rampStop := false } ∧ s.otherAxes t ax ∧ t = { s with axes := t.axes }))

/-- A reference run that fails: its order ends FAULTED with the code as its reason and the positions of that moment, its
fault is recorded with the cell, and the referenced flag is cleared (R69, R109, R147). REFERENCE_FAILED (208): detail 34
where SEEK_BACK meets the opposite limit, with the reaction of setup field 17 (R138); 81 at the pulse that completes
the index search span, and 83 where INDEX begins with the index mark active (R141); 68 where CREEP would begin with the
search signal active (R140); 117 where OFFSET would lead outside the 32-bit range (R145). LIMIT_SWITCH (201) where CLEAR
meets the opposite limit, or CREEP with P4 0 the search limit (R139, R140, R146). At creep speed or standing the axis is
FAULTED at once, whichever reaction is set (R147). That CREEP judges its search signal and OFFSET its range before drive
ready and the limit is the model's reading and choice (logs 29, 50). STOP_AXIS on a run ends it STOPPED and clears the
referenced flag: at once where the run creeps or stands, a clear pulse running on; in APPROACH, SEEK_BACK and OFFSET
over a LINEAR ramp at the stop decel, which only in OFFSET is bound by the target, and whose last pulse ends it (R148). -/
def Obligations.ReferenceRunsEndEarly : Prop :=
  (∀ (c : Instr) (s : State) (ax : AxisIx) (r : Race) (e : Entry) (a b : Axis) (here : Word) (code detail : Nat),
    s.memoryWf = true → s.onePlace → s.quiet = true → s.watches = [] → s.faultEntry (.axis ax) = none →
    uncollected c → a = s.axis ax → a.state = .running → a.list = [e] → e.kind = .reference → e.status = .active →
    e.fly = .none → e.opts.smooth = false → e.cell < 480 → a.alarmActive = false → a.setup.followLimit = 0 →
    -- by an input
    ((∃ f, inputCommand c = some (ax, f) ∧ f a.inputs ≠ a.inputs ∧ b = { a with inputs := f a.inputs } ∧
        here = a.commanded ∧ a.moving = true ∧ b.alarmActive = false ∧ b.readyActive = true ∧
        ((a.ref.phase = .seekBack ∧ (a.ref.rampStop = true ∨ b.referenceActive = true ∨ a.ref.switchSeen = false) ∧
            b.limitActive a.prof.dir = true ∧ a.seen.limit = false ∧ code = 208 ∧ detail = 34) ∨
          (a.ref.phase = .clear ∧ b.searchActive e = true ∧ b.limitActive a.prof.dir = true ∧ a.seen.limit = false ∧
            code = 201 ∧ detail = if a.prof.dir = .plus then 1 else 2) ∨
          (a.ref.phase = .creep ∧ e.params.p4 = 0 ∧ b.searchActive e = false ∧ b.limitActive a.prof.dir = true ∧
            a.seen.limit = false ∧ code = 201 ∧ detail = if a.prof.dir = .plus then 1 else 2) ∨
          (a.ref.phase = .creep ∧ b.searchActive e = true ∧ e.params.p5.extractLsb' 16 16 = 1 ∧
            b.indexActive = true ∧ code = 208 ∧ detail = 83))) ∨
      -- by a pulse
      (c = .outputPulse ax r ∧ b = a ∧ a.moving = true ∧ a.undisturbed ∧ a.ref.phase = .index ∧
        a.prof.plan = none ∧ here.toInt = a.commanded.toInt + a.prof.dir.sign ∧
        a.setup.indexSpan ≤ (here.toInt - a.ref.indexStart.toInt).natAbs ∧ code = 208 ∧ detail = 81) ∨
      -- at the end of a pause
      (c = .pauseExpiry ax r ∧ b = a ∧ here = a.commanded ∧ a.moving = false ∧ a.ref.phase = .pause ∧
        a.ref.pauseTimer = some 0 ∧
        ((a.ref.next = .creep ∧ a.searchActive e = true ∧ code = 208 ∧ detail = 68) ∨
          (a.ref.next = .offset ∧ (e.params.p7.extractLsb' 0 24).toInt ≠ 0 ∧
            (a.commanded.toInt + (e.params.p7.extractLsb' 0 24).toInt < -2147483648 ∨
              2147483647 < a.commanded.toInt + (e.params.p7.extractLsb' 0 24).toInt) ∧
            code = 208 ∧ detail = 117)))) →
    ∃ t, exec c s = .next t ∧ s.reports t ax code detail e.cell ∧ (t.axis ax).referenced = false ∧
      (t.axis ax).ref.phase = .none ∧ (t.axis ax).commanded = here ∧ (t.axis ax).feedback = a.feedback ∧
      (a.ref.phase = .seekBack → (t.axis ax).reacts b a.setup.limitReaction) ∧
      (a.ref.phase ≠ .seekBack → (t.axis ax).state = .faulted ∧ (t.axis ax).stopCause = .fault ∧
        (t.axis ax).list = [] ∧ (t.axis ax).moving = false ∧ (t.axis ax).driveEnable = false) ∧
      t.endReads e.cell (bytes4 6 code 0 0) 0 here a.feedback (BitVec.ofNat 32 e.elapsed) ∧
      t.chain = s.chain ++ [e.cell] ∧ (∀ x, ¬ mayWrite s e.cell x → t.readByte x = s.readByte x) ∧
      s.otherAxes t ax ∧ t = { s with
        mem := t.mem, chain := t.chain, causes := t.causes, faults := t.faults, axes := t.axes }) ∧
  -- STOP_AXIS
  (∀ (s : State) (ax : AxisIx) (p : Params) (e : Entry) (a : Axis), s.memoryWf = true → s.onePlace → s.watches = [] →
    a = s.axis ax → a.state = .running → a.list = [e] → e.kind = .reference → e.status = .active → e.fly = .none →
    e.cell < 480 → (a.moving = false ∨ a.ref.phase.creeps = true →
      ∃ t, s.carryOut .stopAxis (.axis ax) p = .done t ∧ s.endsAlone t ax e 3 a.commanded ∧
        (t.axis ax).referenced = false ∧ (t.axis ax).ref.phase = .none ∧
        (t.axis ax).ref.clearTimer = a.ref.clearTimer ∧ (t.axis ax).ref.clearOut = a.ref.clearOut) ∧
    (a.moving = true → a.ref.phase ∈ [RefPhase.approach, .seekBack, .offset] → a.canRamp a.setup.stopDecel →
      (a.ref.phase = .offset → a.prof.dir = e.dir ∧ 0 < e.remaining a.commanded.toInt) →
      ∃ t, s.carryOut .stopAxis (.axis ax) p = .done t ∧ (t.axis ax).state = .stopping ∧
        (t.axis ax).stopCause = .request ∧ (t.axis ax).rampEnd = .stopped ∧ (t.axis ax).list = [e] ∧
        (t.axis ax).ref = a.ref ∧ (t.axis ax).ramps a a.setup.stopDecel (if a.ref.phase = .offset then
          min (e.remaining a.commanded.toInt).toNat a.rangeBound else a.rangeBound) ∧
        s.otherAxes t ax ∧ t = { s with axes := t.axes })) ∧
  (∀ (s : State) (ax : AxisIx) (r : Race) (a : Axis) (e : Entry) (q : Plan) (here : Int),
    s.memoryWf = true → s.onePlace → s.quiet = true → s.watches = [] → a = s.axis ax → a.moving = true →
    a.undisturbed → a.ref.phase ∈ [RefPhase.approach, .seekBack, .offset] → a.prof.plan = some q →
    q.moved + 1 = q.length → a.list = [e] → e.kind = .reference → e.status = .active → e.fly = .none →
    e.cell < 480 → a.state = .stopping → a.stopCause ≠ .fault → a.rampEnd = .stopped →
    here = a.commanded.toInt + a.prof.dir.sign → -2147483648 ≤ here → here ≤ 2147483647 →
    ∃ t, exec (.outputPulse ax r) s = .next t ∧ s.endsAlone t ax e 3 (BitVec.ofInt 32 here) ∧
      (t.axis ax).referenced = false ∧ (t.axis ax).ref.phase = .none ∧ (t.axis ax).commanded.toInt = here)

/-- The fly conditions of R58, in their order, on a running move and the entry behind it; with the claim of a GATED
successor judged by its gate. The junction speed of a pair is not above the cap nor either target speed, and from it a
LINEAR successor that is no JOG comes down to the floor speed within its own length; it is the largest such speed (R80);
before a JOG the last condition is not applied. The pair of 3.9 and 4.9 has the junction speed 10,000, and under an
override of 80 % and the cap 10,000 the junction speed 8,000 (R76, R80, R85). -/
def Obligations.FlyConditions : Prop :=
  (∀ (s : State) (st : AxisSetup) (e n : Entry) (base : Int),
    s.flyFails st e none base = some 1 ∧
    (n.kind.moves = true → ¬ (0 < (n.targetFrom st base - base) * e.dir.sign) →
      s.flyFails st e (some n) base = some 2) ∧
    (n.kind = .jog → dirOfWord n.params.p1 ≠ e.dir → s.flyFails st e (some n) base = some 2) ∧
    ((n.kind.moves = true → 0 < (n.targetFrom st base - base) * e.dir.sign) →
      (n.kind = .jog → dirOfWord n.params.p1 = e.dir) →
      (n.opts.gated = true → s.gateOpen n.gate = false → s.flyFails st e (some n) base = some 3) ∧
      ((n.opts.gated = true → s.gateOpen n.gate = true) →
        s.flyFails st e (some n) base = if n.kind.moves then none else some 4))) ∧
  -- the junction speed
  (∀ (a : Axis) (e n : Entry) (cap : Nat) (stops : Nat → Prop), n.kind.moves = true → cap < 2 ^ 19 →
    (∀ v, stops v ↔ v ≤ a.setup.floor ∨
      linearLen (sqOf v) (sqOf a.setup.floor) (rateOr n.params.p4 a.setup.decel) ≤
        (n.targetFrom a.setup e.target - e.target).natAbs) →
    a.junctionSpeed e n cap ≤ cap ∧ a.junctionSpeed e n cap ≤ a.targetSpeed e ∧
      a.junctionSpeed e n cap ≤ a.targetSpeed n ∧
      (n.kind = .jog → a.junctionSpeed e n cap = min cap (min (a.targetSpeed e) (a.targetSpeed n))) ∧
      (n.kind ≠ .jog → n.opts.smooth = false → stops (a.junctionSpeed e n cap) ∧
        ∀ v, v ≤ cap → v ≤ a.targetSpeed e → v ≤ a.targetSpeed n → stops v → v ≤ a.junctionSpeed e n cap)) ∧
  (∀ (a : Axis) (e n : Entry), a.setup.floor = 1000 → a.setup.maxSpeed = 100000 → a.setup.decel = 100000 →
    e.target = 20000 → e.params.p2 = 20000 → e.newSpeed = none → n.kind = .moveAbs → n.params.p1 = 30000 →
    n.params.p2 = 10000 → n.params.p4 = 0 → n.opts.smooth = false → n.newSpeed = none →
    (a.prof.override = 100 → a.junctionSpeed e n (a.targetSpeed e) = 10000) ∧
    (a.prof.override = 80 → a.junctionSpeed e n 10000 = 8000)) ∧
  (∀ (a : Axis) (e : Entry), a.targetSpeed e =
    max a.setup.floor (min a.setup.maxSpeed (e.newSpeed.getD e.params.p2.toNat * a.prof.override / 100)))

/-- A LINEAR ramp has after k pulses the speed of a constant rate (R73; squares of speeds stand in 10^-18 (pulses/s)^2,
log 9), reaches its end speed within its rounded length (R75), and the worked plans of 4.3 come out: the triangle with
peak 17,349 and decel and commit points 1,500, and the SMOOTH ramp of 2,100 pulses. -/
def Obligations.RampsAndWorkedPlans : Prop :=
  (∀ u v rate k : Nat, 0 < rate → k < linearLen u v rate → (linearRamp u v rate).sqAt k =
    (if u ≤ v then min (u + 2 * rate * nano ^ 2 * k) v else max (u - 2 * rate * nano ^ 2 * k) v)) ∧
  (∀ u v rate k : Nat, 0 < rate → linearLen u v rate ≤ k → (linearRamp u v rate).sqAt k = v) ∧
  (∀ u v rate : Nat, 0 < rate → (v - u) + (u - v) ≤ 2 * rate * nano ^ 2 * linearLen u v rate ∧
    2 * rate * nano ^ 2 * linearLen u v rate < (v - u) + (u - v) + 2 * rate * nano ^ 2) ∧
  (∀ p : Plan, p = Rates.plan ⟨.linear, 100000, 100000, 0, 1000, 100000⟩ (sqOf 1000) 0 3000 20000 1000 true →
    p.peakSq = sqOf 17349 ∧ p.decelAt = 1500 ∧ p.commitAt = some 1500 ∧ p.first.len = 1500 ∧ p.final.len = 1500) ∧
  (Rates.ramp ⟨.smooth, 100000, 100000, 10000000, 1000, 100000⟩ (sqOf 1000) 0 20000).len = 2100

/-! ### Watches, event inputs, trigger outputs (chapter 6) -/

/-- An event input takes a new level: it is stored, and where no watch observes it nothing else changes (R131). A
watch on it that was false fires when it becomes active, its result part holding the fire count, no positions and the
time since arming (R19), word 2C Hex whole by the model's choice (log 51); a PULSE_OUTPUT action then makes its trigger
output active for its width (R117, R119, R132, R133). The pulse ends when its timer has run out (R133). -/
def Obligations.EventInputAndTrigger : Prop :=
  (∀ (s : State) (i : Fin 4) (level : Bool) (r : Race), s.settled = true → s.unwatched (.eventInput i) = true →
    exec (.eventInputChange i level r) s = .next { s with events := s.events.set i level }) ∧
  (∀ (s : State) (i o : Fin 4) (r : Race) (v : Watch) (width : Nat), s.quiet = true → s.watches = [v] →
    v.quantity = .eventInput i → v.truth = false → v.action = .pulseOutput o width → v.repeatLeft ≠ 1 →
    s.events.get i = false → s.memoryWf = true → v.cell < 480 →
    ∃ t, exec (.eventInputChange i true r) s = .next t ∧ t.events = s.events.set i true ∧
      (∀ v' ∈ t.watches, t.firingReads v') ∧ (∀ a, ¬ inResultPart v.cell a → t.readByte a = s.readByte a) ∧
      t.triggers = s.triggers.set o { active := true, timer := some width } ∧
      (∃ v', t.watches = [v'] ∧ v' = { v with
        truth := true, fireCount := min (v.fireCount + 1) 0xFFFFFFFF, lastCmd := 0, lastFb := 0, lastNA := false,
        repeatLeft := v.repeatLeft - 1 }) ∧
      t = { s with mem := t.mem, events := t.events, triggers := t.triggers, watches := t.watches }) ∧
  (∀ (s : State) (o : Fin 4), (s.triggers.get o).timer = some 0 →
    exec (.triggerPulseExpiry o) s =
      .next { s with triggers := s.triggers.set o { active := false, timer := none } })

/-- A watch that was false finds its condition true and fires. Its entry and its result part record the fire count, the
positions of the source axis, or for EVENT_INPUT and ELAPSED those of the target axis of an axis action, else 0, the
time since arming, and whether the action applied, by the table of R121 (R19, R114, R117, R119). An action that does
not apply changes nothing else; ADVANCE, HOLD and STOP that apply do what the control order does, which ends DONE in
exactly these cases, and so does OPEN_GATE; SET_SPEED gives the new speed (R86, R121). With repeats left the watch stays
armed; its last firing ends it FIRED_OUT behind what the action ended (R120). So fires a watch on the FEEDBACK_POS or
FOLLOWING_ERROR of an axis at the encoder edge, and one on the COMMANDED_POS or SPEED of an axis RUNNING a move at the
output pulse, that makes its condition true (R114). That word 2C Hex is written whole is the model's choice (log 51). -/
def Obligations.WatchFires : Prop :=
  (∀ (s : State) (v : Watch) (x : Sample), s.memoryWf = true → s.onePlace → v ∈ s.watches → v.cell < 480 →
    v.truth = false → v.condition.holds v.threshold x = true → v.fireCount < 0xFFFFFFFF → v.quantity ≠ .elapsed →
    ∃ (m : Watch) (s1 s2 : State), m = { v with
        truth := true, fireCount := v.fireCount + 1, lastCmd := m.lastCmd, lastFb := m.lastFb, lastNA := m.lastNA } ∧
      (m.lastNA = false ↔ s.actionDue v.action) ∧
      (∀ ax, v.quantity = .commandedPos ax ∨ v.quantity = .feedbackPos ax ∨ v.quantity = .speed ax ∨
          v.quantity = .followingError ax ∨ ((∃ i, v.quantity = .eventInput i) ∧
            ((∃ k, asControl v.action = some (k, ax)) ∨ ∃ n, v.action = .setSpeed ax n)) →
        m.lastCmd = (s.axis ax).commanded ∧ m.lastFb = (s.axis ax).feedback) ∧
      ((∃ i, v.quantity = .eventInput i) → asControl v.action = none → (∀ ax n, v.action ≠ .setSpeed ax n) →
        m.lastCmd = 0 ∧ m.lastFb = 0) ∧
      -- recorded
      s1 = { s with mem := s1.mem, watches := s.watches.map (fun y => if y.cell = v.cell then m else y) } ∧
      s1.firingReads m ∧ (∀ b, ¬ inResultPart v.cell b → s1.readByte b = s.readByte b) ∧
      -- performed
      (¬ s.actionDue v.action → s2 = s1) ∧ (v.action = .latchOnly → s2 = s1) ∧
      (∀ k ax p, asControl v.action = some (k, ax) → (s.axis ax).list ≠ [] → p.p1 = 0 →
        (s.actionDue v.action ↔ ∃ u, s1.carryOut k (.axis ax) p = .done u) ∧
        ∀ u, s1.carryOut k (.axis ax) p = .done u → s2 = u) ∧
      (∀ g p, v.action = .openGate g → p.p1.toNat = g.val → s1.carryOut .openGate .module p = .done s2) ∧
      (∀ ax n, v.action = .setSpeed ax n → s.actionDue v.action → s2 = s1.perform (.setSpeed ax n)) ∧
      (∀ o width, v.action = .pulseOutput o width →
        s2 = { s1 with triggers := s1.triggers.set o { active := true, timer := some width } }) ∧
      -- counted
      (v.repeatLeft ≠ 1 → s.evaluate v.cell x = { s2 with
        watches := s2.watches.map (fun y =>
          if y.cell = v.cell then { y with repeatLeft := y.repeatLeft - 1 } else y) }) ∧
      (v.repeatLeft = 1 → ∃ t, s.evaluate v.cell x = t ∧
        t.watches = s2.watches.filter (fun y => y.cell != v.cell) ∧ t.chain = s2.chain ++ [v.cell] ∧
        t.causes = { s2.causes with ret := s2.causes.ret || v.notify } ∧
        t = { s2 with mem := t.mem, watches := t.watches, chain := t.chain, causes := t.causes } ∧
        t.endReads v.cell (bytes4 8 0 (32 * m.lastNA.toNat) 0) (BitVec.ofNat 32 m.fireCount) m.lastCmd m.lastFb
          (BitVec.ofNat 32 v.sinceArm) ∧
        ∀ b, ¬ mayWrite s2 v.cell b → t.readByte b = s2.readByte b)) ∧
  (∀ (s : State) (ax : AxisIx) (a' b' : Bool) (r : Race) (v : Watch) (x : Axis) (d : Int) (f : Word),
    s.memoryWf = true → s.onePlace → s.quiet = true → s.watches = [v] → v.cell < 480 → v.truth = false →
    v.fireCount < 0xFFFFFFFF → v.repeatLeft ≠ 1 → v.action = .latchOnly → x = s.axis ax → x.state ≠ .disabled →
    x.setup.followLimit = 0 → encoderCounts x.setup.encMode x.encA x.encB a' b' = [d] →
    f = x.feedback + BitVec.ofInt 32 d →
    ((v.quantity = .feedbackPos ax ∧ v.condition.holds v.threshold (.value f.toInt) = true) ∨
      (v.quantity = .followingError ax ∧ v.condition.holds v.threshold
        (.value ((followErrorOf x.setup x.commanded f).toInt.natAbs : Nat)) = true)) →
    ∃ t m, exec (.encoderEdge ax a' b' r) s = .next t ∧ t.watches = [m] ∧
      m = { v with truth := true, fireCount := v.fireCount + 1, lastCmd := x.commanded, lastFb := f, lastNA := false,
                   repeatLeft := v.repeatLeft - 1 } ∧
      t.firingReads m ∧ (∀ b, ¬ inResultPart v.cell b → t.readByte b = s.readByte b) ∧
      (t.axis ax).feedback = f ∧ s.otherAxes t ax ∧ t = { s with mem := t.mem, watches := t.watches, axes := t.axes }) ∧
  (∀ (s : State) (ax : AxisIx) (r : Race) (v : Watch) (a : Axis) (e : Entry) (es : List Entry) (q : Plan) (here : Int)
      (sq : Nat),
    s.memoryWf = true → s.onePlace → s.quiet = true → s.watches = [v] → v.cell < 480 → v.truth = false →
    v.fireCount < 0xFFFFFFFF → v.repeatLeft ≠ 1 → v.action = .latchOnly → a = s.axis ax → a.state = .running →
    a.moving = true → a.undisturbed → a.list = e :: es → e.kind.positional = true → e.opts.fly = false →
    a.ref.phase = .none → a.ref.rampStop = false → a.prof.pendingReplan = false → a.prof.plan = some q →
    q.moved + 1 < q.length → here = a.commanded.toInt + a.prof.dir.sign → -2147483648 ≤ here → here ≤ 2147483647 →
    sq = max (sqOf a.setup.floor) (min (sqOf a.setup.maxSpeed) (q.sqAt (q.moved + 1))) →
    ((v.quantity = .commandedPos ax ∧ v.condition.holds v.threshold (.value here) = true) ∨
      (v.quantity = .speed ax ∧ sq ≠ a.prof.speedSq ∧ v.condition.holds v.threshold (.speedSq sq) = true)) →
    ∃ t m, exec (.outputPulse ax r) s = .next t ∧ t.watches = [m] ∧
      m = { v with truth := true, fireCount := v.fireCount + 1, lastCmd := BitVec.ofInt 32 here,
                   lastFb := a.feedback, lastNA := false, repeatLeft := v.repeatLeft - 1 } ∧
      t.firingReads m ∧ (∀ b, ¬ inResultPart v.cell b → t.readByte b = s.readByte b) ∧
      (t.axis ax).commanded.toInt = here ∧ (t.axis ax).prof.speedSq = sq ∧ s.otherAxes t ax ∧
      t = { s with mem := t.mem, watches := t.watches, axes := t.axes })

/-- The elapsed count of a watch with LATCH_ONLY makes its condition true: the watch fires. The result part of its
cell holds the fire count and the time since arming; that a firing with repeats left writes the whole of word 2C Hex,
which then reads 0 whatever stood there, is the model's choice (log 51). With repeats left it stays armed and its
elapsed count returns to 0, its truth following without a firing; its last repeat ends it FIRED_OUT and links its cell,
with RETURN where it has NOTIFY (R19, R116, R119, R120). -/
def Obligations.ElapsedWatchFires : Prop :=
  ∀ (s : State) (r : Race) (v : Watch), s.memoryWf = true → s.onePlace → s.quiet = true → v ∈ s.watches →
    v.cell < 480 → v.quantity = .elapsed → v.truth = false → v.action = .latchOnly →
    v.condition.holds v.threshold (.value v.elapsed) = true → v.fireCount < 0xFFFFFFFF →
    ∃ t, exec (.elapsedReached v.cell r) s = .next t ∧
      t.readWord (0x800 + 64 * v.cell + 0x30) = BitVec.ofNat 32 (v.fireCount + 1) ∧
      t.readWord (0x800 + 64 * v.cell + 0x34) = 0 ∧ t.readWord (0x800 + 64 * v.cell + 0x38) = 0 ∧
      t.readWord (0x800 + 64 * v.cell + 0x3C) = BitVec.ofNat 32 v.sinceArm ∧
      (v.repeatLeft ≠ 1 →
        t.readWord (0x800 + 64 * v.cell + 0x2C) = 0 ∧
        (∀ a, ¬ inResultPart v.cell a → t.readByte a = s.readByte a) ∧
        t.watches = s.watches.map (fun x => if x.cell = v.cell then
          { v with
            truth := v.condition.holds v.threshold (.value 0), fireCount := v.fireCount + 1, elapsed := 0,
            lastCmd := 0, lastFb := 0, lastNA := false, repeatLeft := v.repeatLeft - 1 } else x) ∧
        t = { s with mem := t.mem, watches := t.watches }) ∧
      (v.repeatLeft = 1 →
        t.readWord (0x800 + 64 * v.cell + 0x2C) = 8 ∧ t.readByte (0x800 + 64 * v.cell) = 6 ∧
        (∀ a, ¬ mayWrite s v.cell a → t.readByte a = s.readByte a) ∧
        t.watches = s.watches.filter (fun x => x.cell != v.cell) ∧ t.chain = s.chain ++ [v.cell] ∧
        t.causes = { s.causes with ret := s.causes.ret || v.notify } ∧
        t = { s with mem := t.mem, watches := t.watches, chain := t.chain, causes := t.causes })

/-! ### The millisecond and what runs out (chapters 3, 7, 9, 10) -/

/-- A millisecond outside POWER_UP, where nothing else is waiting: the module clock rises by one modulo 2^32; the
elapsed time and the deadline of every ACTIVE head, a running DWELL, the pause, clear, trigger and supervision timers
and the counts of the watches move by one, and the truth of a watch on ELAPSED becomes false where its condition no
longer holds; nothing else changes (R18, R56, R66, R112, R116, R143, R144, R169, R180). That a rise which makes the
condition true is left to ELAPSED_REACHED, and that a timer at 0 stays there until its expiry is taken, are the
model's choices (logs 6 and 5). -/
def Obligations.MillisecondTick : Prop :=
  ∀ (s : State) (r : Race), s.modState ≠ .powerUp → s.settled = true →
    ∃ t, exec (.moduleClockTick r) s = .next t ∧ t.clock = s.clock + 1 ∧
      t.supTimer = (if s.modState = .running then s.supTimer.map (· - 1) else s.supTimer) ∧
      (∀ o, t.triggers.get o =
        { s.triggers.get o with timer := (s.triggers.get o).timer.map (· - 1) }) ∧
      (∀ ax,
        ((s.axis ax).list = [] → (t.axis ax).list = []) ∧
        (∀ e es, (s.axis ax).list = e :: es → (t.axis ax).list =
          (if e.status = .active then
            { e with
              elapsed := min (e.elapsed + 1) 0xFFFFFFFF
              deadlineTimer := e.deadlineTimer.map (· - 1)
              dwellLeft := if (s.axis ax).state = .running ∧ e.kind = .dwell then e.dwellLeft - 1
                else e.dwellLeft }
          else e) :: es) ∧
        (t.axis ax).ref = { (s.axis ax).ref with
          pauseTimer := (s.axis ax).ref.pauseTimer.map (· - 1)
          clearTimer := (s.axis ax).ref.clearTimer.map (· - 1) } ∧
        t.axis ax = { s.axis ax with list := (t.axis ax).list, ref := (t.axis ax).ref }) ∧
      t.watches.length = s.watches.length ∧
      (∀ (i : Nat) (v v' : Watch), s.watches[i]? = some v → t.watches[i]? = some v' →
        (v.quantity ≠ .elapsed → v' = { v with sinceArm := min (v.sinceArm + 1) 0xFFFFFFFF }) ∧
        (v.quantity = .elapsed → v' = { v with
          sinceArm := min (v.sinceArm + 1) 0xFFFFFFFF
          elapsed := min (v.elapsed + 1) 0xFFFFFFFF
          truth := v.truth &&
            v.condition.holds v.threshold (.value (min (v.elapsed + 1) 0xFFFFFFFF : Nat)) })) ∧
      t = { s with clock := t.clock, axes := t.axes, watches := t.watches, triggers := t.triggers,
                   supTimer := t.supTimer }

/-- An image refresh outside POWER_UP writes every word of the three images from the state of the moment and no other
byte; among them, by 11.3 to 11.5, those listed (R113, R162, R187). -/
def Obligations.ImagesRefreshed : Prop :=
  ∀ s : State, s.modState ≠ .powerUp → s.memoryWf = true →
    (∃ t, exec .imageRefresh s = .next t ∧ t = { s with mem := t.mem } ∧
      (∀ a v, (a, v) ∈ s.imageWords → t.readWord a = v) ∧
      (∀ b, (∀ a v, (a, v) ∈ s.imageWords → ¬ inWord a b) → t.readByte b = s.readByte b)) ∧
    (∀ a v, (a, v) ∈ s.imageWords → a % 4 = 0 ∧ 0x40 ≤ a ∧ clearedByReset a) ∧
    (0x40, BitVec.ofNat 32 s.modState.code) ∈ s.imageWords ∧ (0x44, s.clock) ∈ s.imageWords ∧
    (0x48, BitVec.ofNat 32 s.chain.length) ∈ s.imageWords ∧
    (0x50, s.outcome.walkNumber ++ BitVec.ofNat 16 s.outcome.head) ∈ s.imageWords ∧
    (0x54, BitVec.ofNat 16 s.outcome.refused ++ BitVec.ofNat 16 s.outcome.admitted) ∈ s.imageWords ∧
    (0x58, BitVec.ofNat 16 s.outcome.stopping ++ BitVec.ofNat 16 s.outcome.reason.code) ∈ s.imageWords ∧
    (0x60, BitVec.ofNat 32 (s.causes.ret.toNat + 2 * s.causes.fault.toNat + 4 * s.causes.state.toNat))
      ∈ s.imageWords ∧
    (∃ v, (0x64, v) ∈ s.imageWords ∧
      (∀ i : Fin 4, v.getLsbD i.val = s.events.get i ∧ v.getLsbD (8 + i.val) = (s.triggers.get i).active) ∧
      ∀ b, (4 ≤ b ∧ b < 8) ∨ 12 ≤ b → v.getLsbD b = false) ∧
    (∃ v, (0x68, v) ∈ s.imageWords ∧ (∀ g : Fin 16, v.getLsbD g.val = s.gateOpen g) ∧
      ∀ b, 16 ≤ b → v.getLsbD b = false) ∧
    (0x6C, BitVec.ofNat 32 s.watches.length) ∈ s.imageWords ∧
    (∀ k v, k < 16 → s.watches[k]? = some v →
      (0x70 + 8 * k, BitVec.ofNat 16 v.truth.toNat ++ BitVec.ofNat 16 v.cell) ∈ s.imageWords ∧
      (0x74 + 8 * k, BitVec.ofNat 32 v.repeatLeft) ∈ s.imageWords) ∧
    (∀ k, k < 16 → s.watches[k]? = none →
      (0x70 + 8 * k, 0x0000FFFF#32) ∈ s.imageWords ∧ (0x74 + 8 * k, 0#32) ∈ s.imageWords) ∧
    (∀ ax : AxisIx,
      (0x28C + 0x100 * ax.val, (s.axis ax).commanded) ∈ s.imageWords ∧
      (0x290 + 0x100 * ax.val, (s.axis ax).feedback) ∈ s.imageWords ∧
      (0x298 + 0x100 * ax.val, (s.axis ax).followErr) ∈ s.imageWords ∧
      (0x280 + 0x100 * ax.val, bytes4 (s.axis ax).state.code (s.axis ax).stopCause.code
        (s.axis ax).pendingFault.toNat 0) ∈ s.imageWords ∧
      (0x29C + 0x100 * ax.val, BitVec.ofNat 16 (s.axis ax).referenced.toNat ++
        BitVec.ofNat 16 (s.axis ax).prof.override) ∈ s.imageWords ∧
      (0x284 + 0x100 * ax.val, bytes4 (s.axis ax).ref.phase.code (s.axis ax).ref.next.code 0 0) ∈ s.imageWords ∧
      ((s.axis ax).list.length ≤ 16 →
        (0x288 + 0x100 * ax.val,
          BitVec.ofNat 8 (16 - (s.axis ax).list.length) ++ BitVec.ofNat 8 (s.axis ax).list.length ++
            BitVec.ofNat 16 (match (s.axis ax).list with
              | [] => 0xFFFF
              | e :: _ => if e.status = .admitted then 0xFFFF else e.cell)) ∈ s.imageWords) ∧
      (∀ v, v < 2 ^ 72 → (s.axis ax).prof.speedSq = sqOf v →
        (0x294 + 0x100 * ax.val, BitVec.ofNat 32 v) ∈ s.imageWords) ∧
      (∃ v, (0x2A0 + 0x100 * ax.val, v) ∈ s.imageWords ∧
        v.getLsbD 0 = (s.axis ax).limitPlusActive ∧ v.getLsbD 1 = (s.axis ax).limitMinusActive ∧
        v.getLsbD 2 = (s.axis ax).referenceActive ∧ v.getLsbD 3 = (s.axis ax).indexActive ∧
        v.getLsbD 4 = (s.axis ax).readyActive ∧ v.getLsbD 5 = (s.axis ax).alarmActive ∧
        v.getLsbD 8 = (s.axis ax).driveEnable ∧ v.getLsbD 9 = (s.axis ax).ref.clearOut ∧
        ∀ b, (b = 6 ∨ b = 7 ∨ 10 ≤ b) → v.getLsbD b = false)) ∧
    (0x600, BitVec.ofNat 32 s.faults.length) ∈ s.imageWords ∧
    (∀ k e, k < 5 → s.faults[k]? = some e →
      (0x610 + 0x20 * k, BitVec.ofNat 16 e.code ++ BitVec.ofNat 16 (e.scope.code + 256 * e.count))
        ∈ s.imageWords ∧
      (0x614 + 0x20 * k, BitVec.ofNat 32 e.detail) ∈ s.imageWords ∧
      (0x618 + 0x20 * k, BitVec.ofNat 16 e.lastCode ++ BitVec.ofNat 16 e.cell) ∈ s.imageWords ∧
      (0x61C + 0x20 * k, e.time) ∈ s.imageWords)

/-- The deadline of an ACTIVE head runs out: OVERTIME is recorded with the cell as its detail, the order ends FAULTED with
reason 207 and the axis is FAULTED, or on its fault ramp, with an empty list (R67, R69, R163). A running DWELL with
nothing behind it has no time left: it ends COMPLETED with the positions of its axis, its cell is linked, with RETURN
where it has NOTIFY, and the axis is IDLE with an empty list (R18, R53, R56, R151). -/
def Obligations.DeadlineAndDwellEnd : Prop :=
  (∀ (s : State) (ax : AxisIx) (r : Race) (e : Entry) (es : List Entry), r.collects = [] →
    s.memoryWf = true → s.onePlace → s.calm = true → s.watches = [] → s.faultEntry (.axis ax) = none →
    (s.axis ax).list = e :: es → e.status = .active → e.deadlineTimer = some 0 → e.cell < 480 →
    (s.axis ax).state ∈ [AxisState.running, .holding, .held, .stopping] →
    ¬ ((s.axis ax).state = .stopping ∧ (s.axis ax).stopCause = .fault) →
    ∃ t, exec (.deadlineExpiry ax r) s = .next t ∧ t.faultTaken ax ∧
      (∃ f, t.faultEntry (.axis ax) = some f ∧ f.code = 207 ∧ f.detail = e.cell ∧ f.cell = e.cell ∧
        f.time = s.clock) ∧
      t.readByte (0x800 + 64 * e.cell) = 6 ∧
      (t.readWord (0x800 + 64 * e.cell + 0x2C)).extractLsb' 0 16 = 0xCF06#16 ∧
      (s.chain ++ [e.cell]) <+: t.chain ∧ s.untouched t ∧
      (∀ j, (t.axis j).commanded = (s.axis j).commanded ∧ (t.axis j).feedback = (s.axis j).feedback ∧
        (t.axis j).setup = (s.axis j).setup ∧ (t.axis j).inputs = (s.axis j).inputs) ∧
      (∀ a, t.readByte a ≠ s.readByte a → ∃ n ∈ s.held, inModulePart n a)) ∧
  (∀ (s : State) (ax : AxisIx) (r : Race) (e : Entry),
    s.memoryWf = true → s.onePlace → s.quiet = true → (s.axis ax).state = .running → (s.axis ax).moving = false →
    (s.axis ax).list = [e] → e.status = .active → e.kind = .dwell → e.dwellLeft = 0 → e.cell < 480 →
    ∃ t, exec (.dwellEnd ax r) s = .next t ∧ (t.axis ax).state = .idle ∧ (t.axis ax).list = [] ∧
      t.chain = s.chain ++ [e.cell] ∧ t.readByte (0x800 + 64 * e.cell) = 6 ∧
      t.resultReads e.cell 1 0 (s.axis ax).commanded (s.axis ax).feedback (BitVec.ofNat 32 e.elapsed) ∧
      (∀ a, ¬ mayWrite s e.cell a → t.readByte a = s.readByte a) ∧
      t.causes = { s.causes with ret := s.causes.ret || e.opts.notify } ∧
      (∀ j, j ≠ ax → t.axis j = s.axis j) ∧
      t.axis ax = { s.axis ax with
        state := .idle, stopCause := .none, list := []
        prof := { (s.axis ax).prof with plan := none, pendingReplan := false } } ∧
      t = { s with mem := t.mem, chain := t.chain, causes := t.causes, axes := t.axes })

/-- The pause of a running reference run is over: the next phase begins, in the direction and at the speed the phase
gives it, with drive ready active and no limit active; or its clear pulse begins (R138 to R140, R143, R144). When the
clear-pulse timer runs out, the clear output becomes inactive, and outside the phase CLEAR_PULSE nothing else changes;
in that phase an order without an offset has ended COMPLETED, its cell reading ENDED with end code 1 and the positions
of its axis, linked with RETURN where it has NOTIFY (R18, R144, R151). A pause before OFFSET is followed by the LINEAR
offset motion from standstill (R143, R145). -/
def Obligations.ReferenceTimersEnd : Prop :=
  (∀ (s : State) (ax : AxisIx) (r : Race) (e : Entry) (es : List Entry) (a : Axis),
    s.quiet = true → s.watches = [] → a = s.axis ax → a.state = .running → a.list = e :: es →
    a.ref.phase = .pause → a.ref.pauseTimer = some 0 → a.moving = false →
    a.readyActive = true → a.limitPlusActive = false → a.limitMinusActive = false → e.params.p4 = 0 →
    ((a.ref.next = .creep ∧ a.referenceActive = false) ∨ (a.ref.next = .clear ∧ a.referenceActive = true) ∨
      a.ref.next = .seekBack ∨ a.ref.next = .clearPulse ∨
      (a.ref.next = .offset ∧ (e.params.p7.extractLsb' 0 24).toInt ≠ 0 ∧
        -2147483648 ≤ a.commanded.toInt + (e.params.p7.extractLsb' 0 24).toInt ∧
        a.commanded.toInt + (e.params.p7.extractLsb' 0 24).toInt ≤ 2147483647)) →
    ∃ t, exec (.pauseExpiry ax r) s = .next t ∧ (∀ j, j ≠ ax → t.axis j = s.axis j) ∧
      t = { s with axes := t.axes } ∧
      t.axis ax = { a with prof := (t.axis ax).prof, ref := (t.axis ax).ref, list := (t.axis ax).list } ∧
      (a.ref.next ≠ .offset → (t.axis ax).list = e :: es) ∧
      (a.ref.next = .offset →
        (t.axis ax).list = { e with
          target := a.commanded.toInt + (e.params.p7.extractLsb' 0 24).toInt
          dir := if (e.params.p7.extractLsb' 0 24).toInt < 0 then .minus else .plus } :: es ∧
        (t.axis ax).prof.dir = (if (e.params.p7.extractLsb' 0 24).toInt < 0 then .minus else .plus) ∧
        (t.axis ax).moving = true ∧ (t.axis ax).prof.speedSq = sqOf a.setup.floor ∧
        ∃ p, (t.axis ax).prof.plan = some p ∧ p.moved = 0 ∧ p.form = .linear ∧
          p.length = (e.params.p7.extractLsb' 0 24).toInt.natAbs ∧ p.targetSpeed = e.params.p2.toNat) ∧
      (t.axis ax).ref.phase = a.ref.next ∧ (t.axis ax).ref.pauseTimer = none ∧
      (a.ref.next = .creep → (t.axis ax).prof.dir = e.searchDir ∧ (t.axis ax).moving = true ∧
        (t.axis ax).prof.speedSq = sqOf e.params.p3.toNat) ∧
      (a.ref.next = .clear → (t.axis ax).prof.dir = e.searchDir.opposite ∧ (t.axis ax).moving = true ∧
        (t.axis ax).prof.speedSq = sqOf e.params.p3.toNat) ∧
      (a.ref.next = .seekBack → (t.axis ax).prof.dir = e.searchDir.opposite ∧ (t.axis ax).moving = true ∧
        (t.axis ax).prof.speedSq = sqOf a.setup.floor) ∧
      (a.ref.next = .clearPulse → (t.axis ax).ref.clearOut = true ∧ (t.axis ax).prof = a.prof ∧
        (t.axis ax).ref.clearTimer = some (e.params.p7.extractLsb' 24 8).toNat)) ∧
  (∀ (s : State) (ax : AxisIx) (r : Race), (s.axis ax).ref.clearTimer = some 0 →
    (s.settled = true → (s.axis ax).ref.phase ≠ .clearPulse → ∃ t, exec (.clearPulseExpiry ax r) s = .next t ∧
      t.axis ax = { s.axis ax with ref := { (s.axis ax).ref with clearTimer := none, clearOut := false } } ∧
      (∀ j, j ≠ ax → t.axis j = s.axis j) ∧ t = { s with axes := t.axes }) ∧
    (∀ e, s.quiet = true → s.memoryWf = true → s.onePlace → e.cell < 480 →
      (s.axis ax).ref.phase = .clearPulse → (s.axis ax).state = .running → (s.axis ax).list = [e] →
      e.kind = .reference → e.status = .active → e.params.p7.extractLsb' 0 24 = 0 → (s.axis ax).moving = false →
      ∃ t, exec (.clearPulseExpiry ax r) s = .next t ∧ (t.axis ax).state = .idle ∧ (t.axis ax).list = [] ∧
        (t.axis ax).ref = {} ∧ (t.axis ax).referenced = (s.axis ax).referenced ∧
        t.readByte (0x800 + 64 * e.cell) = 6 ∧
        t.resultReads e.cell 1 0 (s.axis ax).commanded (s.axis ax).feedback (BitVec.ofNat 32 e.elapsed) ∧
        (∀ a, ¬ mayWrite s e.cell a → t.readByte a = s.readByte a) ∧
        t.causes = { s.causes with ret := s.causes.ret || e.opts.notify } ∧
        t.chain = s.chain ++ [e.cell] ∧ (∀ j, j ≠ ax → t.axis j = s.axis j) ∧
        t = { s with mem := t.mem, chain := t.chain, causes := t.causes, axes := t.axes }))

/-- The supervision timer has run out: SILENT, STATE set, the timer stopped, SUPERVISION recorded for the module; the
post queue, the walk, the clock and every setup stay, and the held marks where no COLLECT read falls between two
linkings. With every axis at rest, that is all (R154, R155, R169, R170, R171). -/
def Obligations.SupervisionExpires : Prop :=
  ∀ (s : State) (r : Race), s.modState = .running → s.supTimer = some 0 → s.onePlace →
    (r.collects = [] → ∃ t, exec (.supervisionExpiry r) s = .next t ∧ t.modState = .silent ∧ t.supTimer = none ∧
      t.causes.state = true ∧ (∃ f ∈ t.faults, f.scope = .module) ∧ t.postQueue = s.postQueue ∧ t.walk = s.walk ∧
      t.clock = s.clock ∧ t.mask = s.mask ∧ t.held = s.held ∧ s.chain <+: t.chain ∧
      (∀ j, (t.axis j).setup = (s.axis j).setup ∧ (t.axis j).inputs = (s.axis j).inputs) ∧
      (∀ a, t.readByte a ≠ s.readByte a → ∃ n ∈ s.held, inModulePart n a)) ∧
    (s.standing → s.agenda = [] → (∀ ax, (s.axis ax).ref.assignDue = false) →
      exec (.supervisionExpiry r) s = .next { s.recordFault .module 103 0 0xFFFF with
        modState := .silent
        supTimer := none
        causes := { (s.recordFault .module 103 0 0xFFFF).causes with state := true } })

/-- The silence actions, at a supervision expiry that finds one axis with an order (R46, R70, R171, R184). The entries
behind the head end FLUSHED in their order. A WAITING head ends STOPPED, before them on the return chain (log 41), and
leaves its gate's waiting record, whatever the action. CONTINUE lets a RUNNING, HOLDING or HELD head go on, and leaves a
ramp under way, as RAMP_STOP does; a bound pair loses its binding, FLY_DECLINED 5, and its move is planned to its target
(R60). RAMP_STOP and ABRUPT_STOP end a HELD order and a RUNNING DWELL STOPPED. On a moving LINEAR move or JOG RAMP_STOP
begins the deceleration at the stop decel, bound by the target, with cause SILENCE, to end it STOPPED (R54, R87), and
ABRUPT_STOP ends it STOPPED at once, its pulses having ceased (R90). On a REFERENCE RAMP_STOP does so in APPROACH,
SEEK_BACK and OFFSET, only the last bound, and ends it at once elsewhere, as ABRUPT_STOP does everywhere, with the
referenced flag cleared (R148). On an axis STOPPING ABRUPT_STOP ends the order at once with the end its ramp carries. An
axis FAULTED, or STOPPING with cause FAULT, is left as it is. That RAMP_STOP leaves also a ramp of cause SILENCE as it
is, is the model's choice (log 44). Bindings are as every step keeps them. -/
def Obligations.SilenceActions : Prop :=
  (∀ (s : State) (r : Race) (ax : AxisIx), s.modState = .running → s.supTimer = some 0 → s.onePlace → r.collects = [] →
    s.calm = true → (∀ j, j ≠ ax → (s.axis j).standsEmpty) → (s.axis ax).list = [] →
    (s.axis ax).state = .faulted ∨ ((s.axis ax).state = .stopping ∧ (s.axis ax).stopCause = .fault) →
    exec (.supervisionExpiry r) s = .next { s.recordFault .module 103 0 0xFFFF with
      modState := .silent
      supTimer := none
      causes := { (s.recordFault .module 103 0 0xFFFF).causes with state := true } }) ∧
  (∀ (s : State) (r : Race) (ax : AxisIx) (a : Axis) (e e' : Entry) (es : List Entry) (ends : EndCode → State → Prop),
    s.modState = .running → s.supTimer = some 0 → s.memoryWf = true → s.onePlace → r.collects = [] →
    s.watches = [] → s.calm = true → (∀ j, j ≠ ax → (s.axis j).standsEmpty) → a = s.axis ax → a.bindingOk →
    a.list = e :: es → (∀ n ∈ es, n.status = .admitted ∧ n.cell < 480) → e.cell < 480 →
    (e.kind ≠ .reference → a.ref.phase = .none) → (e.kind.moves = false → e.fly = .none) →
    (e.kind = .reference → e' = e) →
    e' = (if (es.head?.map (·.bound)).getD false then { e with fly := .declined 5, decided := true } else e) →
    -- the head ended at once behind the flushed cells
    (∀ code t, ends code t ↔ ((t.axis ax).state = .idle ∧ (t.axis ax).list = [] ∧ (t.axis ax).moving = false ∧
      t.chain = s.chain ++ es.map (·.cell) ++ [e.cell] ∧
      t.endReads e.cell (bytes4 code.code 0 e'.fly.bits 0) 0 a.commanded a.feedback (BitVec.ofNat 32 e.elapsed))) →
    ∃ t, exec (.supervisionExpiry r) s = .next t ∧ t.modState = .silent ∧ t.supTimer = none ∧
      t.faults = (s.recordFault .module 103 0 0xFFFF).faults ∧ t.causes.state = true ∧ s.otherAxes t ax ∧
      (t.axis ax).commanded = a.commanded ∧ (t.axis ax).feedback = a.feedback ∧ t.gates = s.gates ∧
      (a.state ≠ .faulted → ¬ (a.state = .stopping ∧ a.stopCause = .fault) → a.state ≠ .disabled → a.state ≠ .idle →
        ∀ n ∈ es, t.endReads n.cell 5 0 a.commanded a.feedback 0) ∧
      (a.state = .waiting → e.status = .waiting →
        (t.axis ax).state = .idle ∧ (t.axis ax).list = [] ∧ t.chain = s.chain ++ e.cell :: es.map (·.cell) ∧
        t.endReads e.cell 3 0 a.commanded a.feedback 0 ∧ t.waiting = s.waiting.filter (fun x => x.2 != ax)) ∧
      (e.status = .active →
        -- the head goes on
        (a.setup.silence = .carryOn →
          (a.state = .holding ∨ a.state = .held ∨ a.state = .running → e' = e →
            t.axis ax = { a with list := [e] } ∧ t.chain = s.chain ++ es.map (·.cell)) ∧
          (a.state = .running → e' ≠ e → e.kind.positional = true → e.decided = true →
            0 < e.remaining a.commanded.toInt → (t.axis ax).list = [e'] ∧ (t.axis ax).state = .running ∧
              t.chain = s.chain ++ es.map (·.cell) ∧ (t.axis ax).prof.speedSq = a.prof.speedSq ∧
              ∃ q, (t.axis ax).prof.plan = some q ∧ q.moved = 0 ∧ q.endSpeed = a.setup.floor ∧
                q.length = (e.remaining a.commanded.toInt).toNat)) ∧
        (a.setup.silence ≠ .abruptStop → a.state = .stopping → a.stopCause ≠ .fault → e' = e →
          t.axis ax = { a with list := [e] } ∧ t.chain = s.chain ++ es.map (·.cell)) ∧
        -- it is stopped
        (a.setup.silence ≠ .carryOn → e' = e → a.moving = false →
          a.state = .held ∨ (a.state = .running ∧ e.kind = .dwell) → ends .stopped t) ∧
        (a.setup.silence = .rampStop → a.state = .running ∨ a.state = .holding → e.kind.moves = true →
          e.opts.smooth = false → a.canRamp a.setup.stopDecel → a.prof.dir = e.dir →
          0 < e.remaining a.commanded.toInt →
          (t.axis ax).state = .stopping ∧ (t.axis ax).stopCause = .silence ∧ (t.axis ax).rampEnd = .stopped ∧
            (t.axis ax).list = [e'] ∧ t.chain = s.chain ++ es.map (·.cell) ∧
            (t.axis ax).ramps a a.setup.stopDecel (min (e.remaining a.commanded.toInt).toNat a.rangeBound)) ∧
        (a.setup.silence = .abruptStop → a.state = .running ∨ a.state = .holding → e.kind.moves = true →
          ends .stopped t) ∧
        (a.setup.silence = .abruptStop → a.state = .stopping → a.stopCause ≠ .fault → e.kind ≠ .dwell →
          e' = e → ends a.rampEnd t) ∧
        -- a reference run
        (a.setup.silence ≠ .carryOn → a.state = .running → e.kind = .reference →
          (a.setup.silence = .abruptStop ∨ a.moving = false ∨ a.ref.phase.creeps = true →
            ends .stopped t ∧ (t.axis ax).referenced = false ∧ (t.axis ax).ref.phase = .none ∧
              (t.axis ax).ref.clearTimer = a.ref.clearTimer) ∧
          (a.setup.silence = .rampStop → a.moving = true → a.ref.phase ∈ [RefPhase.approach, .seekBack, .offset] →
            a.canRamp a.setup.stopDecel →
            (a.ref.phase = .offset → a.prof.dir = e.dir ∧ 0 < e.remaining a.commanded.toInt) →
            (t.axis ax).state = .stopping ∧ (t.axis ax).stopCause = .silence ∧ (t.axis ax).rampEnd = .stopped ∧
              (t.axis ax).list = [e] ∧ t.chain = s.chain ++ es.map (·.cell) ∧ (t.axis ax).ref = a.ref ∧
              (t.axis ax).ramps a a.setup.stopDecel (if a.ref.phase = .offset then
                min (e.remaining a.commanded.toInt).toNat a.rangeBound else a.rangeBound)))))

/-! ### What every step keeps -/

/-- Exchange memory keeps its canonical form, so that equal contents are equal data (R188; log 46). -/
def Obligations.MemoryStaysCanonical : Prop :=
  ∀ s t : State, s.memoryWf = true → s.onePlace → step s = .next t → t.memoryWf = true

/-- Every held cell stays in exactly one of the order lists, the watch table and the return chain, and the held marks
are those of these cells (R4, R5). -/
def Obligations.CellsStayInOnePlace : Prop :=
  ∀ s t : State, s.onePlace → step s = .next t → t.onePlace

/-- At most eight heads wait, sixteen watches are armed, sixteen orders stand in a list, and one entry stands for a
scope (R22, R35, R160). -/
def Obligations.BoundsStayKept : Prop :=
  ∀ s t : State, s.withinBounds → s.onePlace → step s = .next t → t.withinBounds

/-- The following error of every axis stays that of its positions under its ratio (R95). -/
def Obligations.FollowingErrorsStayTrue : Prop :=
  ∀ s t : State, (∀ ax, (s.axis ax).errOk) → s.onePlace → step s = .next t → ∀ ax, (t.axis ax).errOk

/-- The module is not in STOPPING with every axis at rest: the passage to STOPPED is made in the step in which the
last axis comes to rest (R185). -/
def Obligations.StoppingEndsAtRest : Prop :=
  ∀ s t : State, (s.modState = .stopping → s.allAtRest = false) → step s = .next t →
    (t.modState = .stopping → t.allAtRest = false)

/-- A standing axis has no speed and no plan (R76, R90). -/
def Obligations.StandingAxesHaveNoSpeed : Prop :=
  ∀ s t : State, (∀ ax, (s.axis ax).standingOk) → step s = .next t → ∀ ax, (t.axis ax).standingOk

/-- Every bound entry is the second of its list, on a RUNNING axis, behind a move with FLY whose fly is taken (R57 to
R60). -/
def Obligations.BoundEntriesStandSecond : Prop :=
  ∀ s t : State, (∀ ax, (s.axis ax).bindingOk) → step s = .next t → ∀ ax, (t.axis ax).bindingOk

/-- No command but the resets, the self-test and the image refresh writes a byte of exchange memory outside the state
byte and the result part of a cell that the module holds or that the walk visits: kind, scope, options, post link,
tag, parameters, deadline and gate number of every cell, and all the rest of memory, stay as they are (R2, R6,
R189). -/
def Obligations.OnlyHeldCellsAreWritten : Prop :=
  ∀ (c : Instr) (s t : State), s.onePlace → exec c s = .next t →
    c ≠ .powerOn → c ≠ .rackResetLine → c ≠ .selfTestPass → c ≠ .selfTestFail → c ≠ .imageRefresh →
    (∀ arg n, c ≠ .reset arg n) → (∀ arg, c ≠ .unknownCommand 3 arg) → (∀ v, c ≠ .ignoredRegisterWrite 8 v) →
    ∀ a, t.readByte a ≠ s.readByte a →
      ∃ n, (n ∈ s.held ∨ ∃ w, s.offeredAt w ∧ w.at_ = n) ∧ inModulePart n a

/-- The invariants hold right after reset: the form of exchange memory (log 46), every held cell in one place, the
capacities, the following errors, no STOPPING at rest, standing axes without speed, and no binding (R4, R5, R22, R35,
R60, R76, R95, R160, R185). -/
def Obligations.InvariantsHoldAtReset : Prop :=
  State.reset.memoryWf = true ∧ State.reset.onePlace ∧ State.reset.withinBounds ∧
    (∀ ax, (State.reset.axis ax).errOk) ∧ (State.reset.modState = .stopping → State.reset.allAtRest = false) ∧
    (∀ ax, (State.reset.axis ax).standingOk) ∧ ∀ ax, (State.reset.axis ax).bindingOk
end

