-- ==== Sys2Proof/Laws/State.lean ====
section
/-!
SUPPORT. What each named update leaves of each field of the state (true by unfolding one record update).
-/

namespace Sys2Proof.Machine

variable (s : State)

/-! ### writeByte -/

@[simp] theorem writeByte_modState (a : Nat) (b : Byte) : (s.writeByte a b).modState = s.modState := rfl
@[simp] theorem writeByte_toClear (a : Nat) (b : Byte) : (s.writeByte a b).toClear = s.toClear := rfl
@[simp] theorem writeByte_clock (a : Nat) (b : Byte) : (s.writeByte a b).clock = s.clock := rfl
@[simp] theorem writeByte_readback (a : Nat) (b : Byte) : (s.writeByte a b).readback = s.readback := rfl
@[simp] theorem writeByte_setupRead (a : Nat) (b : Byte) : (s.writeByte a b).setupRead = s.setupRead := rfl
@[simp] theorem writeByte_visitRead (a : Nat) (b : Byte) : (s.writeByte a b).visitRead = s.visitRead := rfl
@[simp] theorem writeByte_supInterval (a : Nat) (b : Byte) : (s.writeByte a b).supInterval = s.supInterval := rfl
@[simp] theorem writeByte_supTimer (a : Nat) (b : Byte) : (s.writeByte a b).supTimer = s.supTimer := rfl
@[simp] theorem writeByte_faults (a : Nat) (b : Byte) : (s.writeByte a b).faults = s.faults := rfl
@[simp] theorem writeByte_postQueue (a : Nat) (b : Byte) : (s.writeByte a b).postQueue = s.postQueue := rfl
@[simp] theorem writeByte_walk (a : Nat) (b : Byte) : (s.writeByte a b).walk = s.walk := rfl
@[simp] theorem writeByte_outcome (a : Nat) (b : Byte) : (s.writeByte a b).outcome = s.outcome := rfl
@[simp] theorem writeByte_held (a : Nat) (b : Byte) : (s.writeByte a b).held = s.held := rfl
@[simp] theorem writeByte_chain (a : Nat) (b : Byte) : (s.writeByte a b).chain = s.chain := rfl
@[simp] theorem writeByte_causes (a : Nat) (b : Byte) : (s.writeByte a b).causes = s.causes := rfl
@[simp] theorem writeByte_mask (a : Nat) (b : Byte) : (s.writeByte a b).mask = s.mask := rfl
@[simp] theorem writeByte_collectWord (a : Nat) (b : Byte) : (s.writeByte a b).collectWord = s.collectWord := rfl
@[simp] theorem writeByte_watches (a : Nat) (b : Byte) : (s.writeByte a b).watches = s.watches := rfl
@[simp] theorem writeByte_gates (a : Nat) (b : Byte) : (s.writeByte a b).gates = s.gates := rfl
@[simp] theorem writeByte_waiting (a : Nat) (b : Byte) : (s.writeByte a b).waiting = s.waiting := rfl
@[simp] theorem writeByte_triggers (a : Nat) (b : Byte) : (s.writeByte a b).triggers = s.triggers := rfl
@[simp] theorem writeByte_events (a : Nat) (b : Byte) : (s.writeByte a b).events = s.events := rfl
@[simp] theorem writeByte_axes (a : Nat) (b : Byte) : (s.writeByte a b).axes = s.axes := rfl
@[simp] theorem writeByte_agenda (a : Nat) (b : Byte) : (s.writeByte a b).agenda = s.agenda := rfl
@[simp] theorem writeByte_pending (a : Nat) (b : Byte) : (s.writeByte a b).pending = s.pending := rfl
@[simp] theorem writeByte_busWrites (a : Nat) (b : Byte) : (s.writeByte a b).busWrites = s.busWrites := rfl

/-! ### setHeld -/

@[simp] theorem setHeld_mem (n : Nat) : (s.setHeld n).mem = s.mem := rfl
@[simp] theorem setHeld_modState (n : Nat) : (s.setHeld n).modState = s.modState := rfl
@[simp] theorem setHeld_toClear (n : Nat) : (s.setHeld n).toClear = s.toClear := rfl
@[simp] theorem setHeld_clock (n : Nat) : (s.setHeld n).clock = s.clock := rfl
@[simp] theorem setHeld_readback (n : Nat) : (s.setHeld n).readback = s.readback := rfl
@[simp] theorem setHeld_setupRead (n : Nat) : (s.setHeld n).setupRead = s.setupRead := rfl
@[simp] theorem setHeld_visitRead (n : Nat) : (s.setHeld n).visitRead = s.visitRead := rfl
@[simp] theorem setHeld_supInterval (n : Nat) : (s.setHeld n).supInterval = s.supInterval := rfl
@[simp] theorem setHeld_supTimer (n : Nat) : (s.setHeld n).supTimer = s.supTimer := rfl
@[simp] theorem setHeld_faults (n : Nat) : (s.setHeld n).faults = s.faults := rfl
@[simp] theorem setHeld_postQueue (n : Nat) : (s.setHeld n).postQueue = s.postQueue := rfl
@[simp] theorem setHeld_walk (n : Nat) : (s.setHeld n).walk = s.walk := rfl
@[simp] theorem setHeld_outcome (n : Nat) : (s.setHeld n).outcome = s.outcome := rfl
@[simp] theorem setHeld_chain (n : Nat) : (s.setHeld n).chain = s.chain := rfl
@[simp] theorem setHeld_causes (n : Nat) : (s.setHeld n).causes = s.causes := rfl
@[simp] theorem setHeld_mask (n : Nat) : (s.setHeld n).mask = s.mask := rfl
@[simp] theorem setHeld_collectWord (n : Nat) : (s.setHeld n).collectWord = s.collectWord := rfl
@[simp] theorem setHeld_watches (n : Nat) : (s.setHeld n).watches = s.watches := rfl
@[simp] theorem setHeld_gates (n : Nat) : (s.setHeld n).gates = s.gates := rfl
@[simp] theorem setHeld_waiting (n : Nat) : (s.setHeld n).waiting = s.waiting := rfl
@[simp] theorem setHeld_triggers (n : Nat) : (s.setHeld n).triggers = s.triggers := rfl
@[simp] theorem setHeld_events (n : Nat) : (s.setHeld n).events = s.events := rfl
@[simp] theorem setHeld_axes (n : Nat) : (s.setHeld n).axes = s.axes := rfl
@[simp] theorem setHeld_agenda (n : Nat) : (s.setHeld n).agenda = s.agenda := rfl
@[simp] theorem setHeld_pending (n : Nat) : (s.setHeld n).pending = s.pending := rfl
@[simp] theorem setHeld_busWrites (n : Nat) : (s.setHeld n).busWrites = s.busWrites := rfl

/-! ### setReturnCause -/

@[simp] theorem setReturnCause_mem : (s.setReturnCause).mem = s.mem := rfl
@[simp] theorem setReturnCause_modState : (s.setReturnCause).modState = s.modState := rfl
@[simp] theorem setReturnCause_toClear : (s.setReturnCause).toClear = s.toClear := rfl
@[simp] theorem setReturnCause_clock : (s.setReturnCause).clock = s.clock := rfl
@[simp] theorem setReturnCause_readback : (s.setReturnCause).readback = s.readback := rfl
@[simp] theorem setReturnCause_setupRead : (s.setReturnCause).setupRead = s.setupRead := rfl
@[simp] theorem setReturnCause_visitRead : (s.setReturnCause).visitRead = s.visitRead := rfl
@[simp] theorem setReturnCause_supInterval : (s.setReturnCause).supInterval = s.supInterval := rfl
@[simp] theorem setReturnCause_supTimer : (s.setReturnCause).supTimer = s.supTimer := rfl
@[simp] theorem setReturnCause_faults : (s.setReturnCause).faults = s.faults := rfl
@[simp] theorem setReturnCause_postQueue : (s.setReturnCause).postQueue = s.postQueue := rfl
@[simp] theorem setReturnCause_walk : (s.setReturnCause).walk = s.walk := rfl
@[simp] theorem setReturnCause_outcome : (s.setReturnCause).outcome = s.outcome := rfl
@[simp] theorem setReturnCause_held : (s.setReturnCause).held = s.held := rfl
@[simp] theorem setReturnCause_chain : (s.setReturnCause).chain = s.chain := rfl
@[simp] theorem setReturnCause_mask : (s.setReturnCause).mask = s.mask := rfl
@[simp] theorem setReturnCause_collectWord : (s.setReturnCause).collectWord = s.collectWord := rfl
@[simp] theorem setReturnCause_watches : (s.setReturnCause).watches = s.watches := rfl
@[simp] theorem setReturnCause_gates : (s.setReturnCause).gates = s.gates := rfl
@[simp] theorem setReturnCause_waiting : (s.setReturnCause).waiting = s.waiting := rfl
@[simp] theorem setReturnCause_triggers : (s.setReturnCause).triggers = s.triggers := rfl
@[simp] theorem setReturnCause_events : (s.setReturnCause).events = s.events := rfl
@[simp] theorem setReturnCause_axes : (s.setReturnCause).axes = s.axes := rfl
@[simp] theorem setReturnCause_agenda : (s.setReturnCause).agenda = s.agenda := rfl
@[simp] theorem setReturnCause_pending : (s.setReturnCause).pending = s.pending := rfl
@[simp] theorem setReturnCause_busWrites : (s.setReturnCause).busWrites = s.busWrites := rfl

/-! ### setFaultCause -/

@[simp] theorem setFaultCause_mem : (s.setFaultCause).mem = s.mem := rfl
@[simp] theorem setFaultCause_modState : (s.setFaultCause).modState = s.modState := rfl
@[simp] theorem setFaultCause_toClear : (s.setFaultCause).toClear = s.toClear := rfl
@[simp] theorem setFaultCause_clock : (s.setFaultCause).clock = s.clock := rfl
@[simp] theorem setFaultCause_readback : (s.setFaultCause).readback = s.readback := rfl
@[simp] theorem setFaultCause_setupRead : (s.setFaultCause).setupRead = s.setupRead := rfl
@[simp] theorem setFaultCause_visitRead : (s.setFaultCause).visitRead = s.visitRead := rfl
@[simp] theorem setFaultCause_supInterval : (s.setFaultCause).supInterval = s.supInterval := rfl
@[simp] theorem setFaultCause_supTimer : (s.setFaultCause).supTimer = s.supTimer := rfl
@[simp] theorem setFaultCause_faults : (s.setFaultCause).faults = s.faults := rfl
@[simp] theorem setFaultCause_postQueue : (s.setFaultCause).postQueue = s.postQueue := rfl
@[simp] theorem setFaultCause_walk : (s.setFaultCause).walk = s.walk := rfl
@[simp] theorem setFaultCause_outcome : (s.setFaultCause).outcome = s.outcome := rfl
@[simp] theorem setFaultCause_held : (s.setFaultCause).held = s.held := rfl
@[simp] theorem setFaultCause_chain : (s.setFaultCause).chain = s.chain := rfl
@[simp] theorem setFaultCause_mask : (s.setFaultCause).mask = s.mask := rfl
@[simp] theorem setFaultCause_collectWord : (s.setFaultCause).collectWord = s.collectWord := rfl
@[simp] theorem setFaultCause_watches : (s.setFaultCause).watches = s.watches := rfl
@[simp] theorem setFaultCause_gates : (s.setFaultCause).gates = s.gates := rfl
@[simp] theorem setFaultCause_waiting : (s.setFaultCause).waiting = s.waiting := rfl
@[simp] theorem setFaultCause_triggers : (s.setFaultCause).triggers = s.triggers := rfl
@[simp] theorem setFaultCause_events : (s.setFaultCause).events = s.events := rfl
@[simp] theorem setFaultCause_axes : (s.setFaultCause).axes = s.axes := rfl
@[simp] theorem setFaultCause_agenda : (s.setFaultCause).agenda = s.agenda := rfl
@[simp] theorem setFaultCause_pending : (s.setFaultCause).pending = s.pending := rfl
@[simp] theorem setFaultCause_busWrites : (s.setFaultCause).busWrites = s.busWrites := rfl

/-! ### setStateCause -/

@[simp] theorem setStateCause_mem : (s.setStateCause).mem = s.mem := rfl
@[simp] theorem setStateCause_modState : (s.setStateCause).modState = s.modState := rfl
@[simp] theorem setStateCause_toClear : (s.setStateCause).toClear = s.toClear := rfl
@[simp] theorem setStateCause_clock : (s.setStateCause).clock = s.clock := rfl
@[simp] theorem setStateCause_readback : (s.setStateCause).readback = s.readback := rfl
@[simp] theorem setStateCause_setupRead : (s.setStateCause).setupRead = s.setupRead := rfl
@[simp] theorem setStateCause_visitRead : (s.setStateCause).visitRead = s.visitRead := rfl
@[simp] theorem setStateCause_supInterval : (s.setStateCause).supInterval = s.supInterval := rfl
@[simp] theorem setStateCause_supTimer : (s.setStateCause).supTimer = s.supTimer := rfl
@[simp] theorem setStateCause_faults : (s.setStateCause).faults = s.faults := rfl
@[simp] theorem setStateCause_postQueue : (s.setStateCause).postQueue = s.postQueue := rfl
@[simp] theorem setStateCause_walk : (s.setStateCause).walk = s.walk := rfl
@[simp] theorem setStateCause_outcome : (s.setStateCause).outcome = s.outcome := rfl
@[simp] theorem setStateCause_held : (s.setStateCause).held = s.held := rfl
@[simp] theorem setStateCause_chain : (s.setStateCause).chain = s.chain := rfl
@[simp] theorem setStateCause_mask : (s.setStateCause).mask = s.mask := rfl
@[simp] theorem setStateCause_collectWord : (s.setStateCause).collectWord = s.collectWord := rfl
@[simp] theorem setStateCause_watches : (s.setStateCause).watches = s.watches := rfl
@[simp] theorem setStateCause_gates : (s.setStateCause).gates = s.gates := rfl
@[simp] theorem setStateCause_waiting : (s.setStateCause).waiting = s.waiting := rfl
@[simp] theorem setStateCause_triggers : (s.setStateCause).triggers = s.triggers := rfl
@[simp] theorem setStateCause_events : (s.setStateCause).events = s.events := rfl
@[simp] theorem setStateCause_axes : (s.setStateCause).axes = s.axes := rfl
@[simp] theorem setStateCause_agenda : (s.setStateCause).agenda = s.agenda := rfl
@[simp] theorem setStateCause_pending : (s.setStateCause).pending = s.pending := rfl
@[simp] theorem setStateCause_busWrites : (s.setStateCause).busWrites = s.busWrites := rfl

/-! ### addJobs -/

@[simp] theorem addJobs_mem (js : List Job) : (s.addJobs js).mem = s.mem := rfl
@[simp] theorem addJobs_modState (js : List Job) : (s.addJobs js).modState = s.modState := rfl
@[simp] theorem addJobs_toClear (js : List Job) : (s.addJobs js).toClear = s.toClear := rfl
@[simp] theorem addJobs_clock (js : List Job) : (s.addJobs js).clock = s.clock := rfl
@[simp] theorem addJobs_readback (js : List Job) : (s.addJobs js).readback = s.readback := rfl
@[simp] theorem addJobs_setupRead (js : List Job) : (s.addJobs js).setupRead = s.setupRead := rfl
@[simp] theorem addJobs_visitRead (js : List Job) : (s.addJobs js).visitRead = s.visitRead := rfl
@[simp] theorem addJobs_supInterval (js : List Job) : (s.addJobs js).supInterval = s.supInterval := rfl
@[simp] theorem addJobs_supTimer (js : List Job) : (s.addJobs js).supTimer = s.supTimer := rfl
@[simp] theorem addJobs_faults (js : List Job) : (s.addJobs js).faults = s.faults := rfl
@[simp] theorem addJobs_postQueue (js : List Job) : (s.addJobs js).postQueue = s.postQueue := rfl
@[simp] theorem addJobs_walk (js : List Job) : (s.addJobs js).walk = s.walk := rfl
@[simp] theorem addJobs_outcome (js : List Job) : (s.addJobs js).outcome = s.outcome := rfl
@[simp] theorem addJobs_held (js : List Job) : (s.addJobs js).held = s.held := rfl
@[simp] theorem addJobs_chain (js : List Job) : (s.addJobs js).chain = s.chain := rfl
@[simp] theorem addJobs_causes (js : List Job) : (s.addJobs js).causes = s.causes := rfl
@[simp] theorem addJobs_mask (js : List Job) : (s.addJobs js).mask = s.mask := rfl
@[simp] theorem addJobs_collectWord (js : List Job) : (s.addJobs js).collectWord = s.collectWord := rfl
@[simp] theorem addJobs_watches (js : List Job) : (s.addJobs js).watches = s.watches := rfl
@[simp] theorem addJobs_gates (js : List Job) : (s.addJobs js).gates = s.gates := rfl
@[simp] theorem addJobs_waiting (js : List Job) : (s.addJobs js).waiting = s.waiting := rfl
@[simp] theorem addJobs_triggers (js : List Job) : (s.addJobs js).triggers = s.triggers := rfl
@[simp] theorem addJobs_events (js : List Job) : (s.addJobs js).events = s.events := rfl
@[simp] theorem addJobs_axes (js : List Job) : (s.addJobs js).axes = s.axes := rfl
@[simp] theorem addJobs_pending (js : List Job) : (s.addJobs js).pending = s.pending := rfl
@[simp] theorem addJobs_busWrites (js : List Job) : (s.addJobs js).busWrites = s.busWrites := rfl

/-! ### report -/

@[simp] theorem report_mem (q : Quantity) (x : Sample) : (s.report q x).mem = s.mem := rfl
@[simp] theorem report_modState (q : Quantity) (x : Sample) : (s.report q x).modState = s.modState := rfl
@[simp] theorem report_toClear (q : Quantity) (x : Sample) : (s.report q x).toClear = s.toClear := rfl
@[simp] theorem report_clock (q : Quantity) (x : Sample) : (s.report q x).clock = s.clock := rfl
@[simp] theorem report_readback (q : Quantity) (x : Sample) : (s.report q x).readback = s.readback := rfl
@[simp] theorem report_setupRead (q : Quantity) (x : Sample) : (s.report q x).setupRead = s.setupRead := rfl
@[simp] theorem report_visitRead (q : Quantity) (x : Sample) : (s.report q x).visitRead = s.visitRead := rfl
@[simp] theorem report_supInterval (q : Quantity) (x : Sample) : (s.report q x).supInterval = s.supInterval := rfl
@[simp] theorem report_supTimer (q : Quantity) (x : Sample) : (s.report q x).supTimer = s.supTimer := rfl
@[simp] theorem report_faults (q : Quantity) (x : Sample) : (s.report q x).faults = s.faults := rfl
@[simp] theorem report_postQueue (q : Quantity) (x : Sample) : (s.report q x).postQueue = s.postQueue := rfl
@[simp] theorem report_walk (q : Quantity) (x : Sample) : (s.report q x).walk = s.walk := rfl
@[simp] theorem report_outcome (q : Quantity) (x : Sample) : (s.report q x).outcome = s.outcome := rfl
@[simp] theorem report_held (q : Quantity) (x : Sample) : (s.report q x).held = s.held := rfl
@[simp] theorem report_chain (q : Quantity) (x : Sample) : (s.report q x).chain = s.chain := rfl
@[simp] theorem report_causes (q : Quantity) (x : Sample) : (s.report q x).causes = s.causes := rfl
@[simp] theorem report_mask (q : Quantity) (x : Sample) : (s.report q x).mask = s.mask := rfl
@[simp] theorem report_collectWord (q : Quantity) (x : Sample) : (s.report q x).collectWord = s.collectWord := rfl
@[simp] theorem report_watches (q : Quantity) (x : Sample) : (s.report q x).watches = s.watches := rfl
@[simp] theorem report_gates (q : Quantity) (x : Sample) : (s.report q x).gates = s.gates := rfl
@[simp] theorem report_waiting (q : Quantity) (x : Sample) : (s.report q x).waiting = s.waiting := rfl
@[simp] theorem report_triggers (q : Quantity) (x : Sample) : (s.report q x).triggers = s.triggers := rfl
@[simp] theorem report_events (q : Quantity) (x : Sample) : (s.report q x).events = s.events := rfl
@[simp] theorem report_axes (q : Quantity) (x : Sample) : (s.report q x).axes = s.axes := rfl
@[simp] theorem report_pending (q : Quantity) (x : Sample) : (s.report q x).pending = s.pending := rfl
@[simp] theorem report_busWrites (q : Quantity) (x : Sample) : (s.report q x).busWrites = s.busWrites := rfl

/-! ### setAxis -/

@[simp] theorem setAxis_mem (ax : AxisIx) (a : Axis) : (s.setAxis ax a).mem = s.mem := rfl
@[simp] theorem setAxis_modState (ax : AxisIx) (a : Axis) : (s.setAxis ax a).modState = s.modState := rfl
@[simp] theorem setAxis_toClear (ax : AxisIx) (a : Axis) : (s.setAxis ax a).toClear = s.toClear := rfl
@[simp] theorem setAxis_clock (ax : AxisIx) (a : Axis) : (s.setAxis ax a).clock = s.clock := rfl
@[simp] theorem setAxis_readback (ax : AxisIx) (a : Axis) : (s.setAxis ax a).readback = s.readback := rfl
@[simp] theorem setAxis_setupRead (ax : AxisIx) (a : Axis) : (s.setAxis ax a).setupRead = s.setupRead := rfl
@[simp] theorem setAxis_visitRead (ax : AxisIx) (a : Axis) : (s.setAxis ax a).visitRead = s.visitRead := rfl
@[simp] theorem setAxis_supInterval (ax : AxisIx) (a : Axis) : (s.setAxis ax a).supInterval = s.supInterval := rfl
@[simp] theorem setAxis_supTimer (ax : AxisIx) (a : Axis) : (s.setAxis ax a).supTimer = s.supTimer := rfl
@[simp] theorem setAxis_faults (ax : AxisIx) (a : Axis) : (s.setAxis ax a).faults = s.faults := rfl
@[simp] theorem setAxis_postQueue (ax : AxisIx) (a : Axis) : (s.setAxis ax a).postQueue = s.postQueue := rfl
@[simp] theorem setAxis_walk (ax : AxisIx) (a : Axis) : (s.setAxis ax a).walk = s.walk := rfl
@[simp] theorem setAxis_outcome (ax : AxisIx) (a : Axis) : (s.setAxis ax a).outcome = s.outcome := rfl
@[simp] theorem setAxis_held (ax : AxisIx) (a : Axis) : (s.setAxis ax a).held = s.held := rfl
@[simp] theorem setAxis_chain (ax : AxisIx) (a : Axis) : (s.setAxis ax a).chain = s.chain := rfl
@[simp] theorem setAxis_causes (ax : AxisIx) (a : Axis) : (s.setAxis ax a).causes = s.causes := rfl
@[simp] theorem setAxis_mask (ax : AxisIx) (a : Axis) : (s.setAxis ax a).mask = s.mask := rfl
@[simp] theorem setAxis_collectWord (ax : AxisIx) (a : Axis) : (s.setAxis ax a).collectWord = s.collectWord := rfl
@[simp] theorem setAxis_watches (ax : AxisIx) (a : Axis) : (s.setAxis ax a).watches = s.watches := rfl
@[simp] theorem setAxis_gates (ax : AxisIx) (a : Axis) : (s.setAxis ax a).gates = s.gates := rfl
@[simp] theorem setAxis_waiting (ax : AxisIx) (a : Axis) : (s.setAxis ax a).waiting = s.waiting := rfl
@[simp] theorem setAxis_triggers (ax : AxisIx) (a : Axis) : (s.setAxis ax a).triggers = s.triggers := rfl
@[simp] theorem setAxis_events (ax : AxisIx) (a : Axis) : (s.setAxis ax a).events = s.events := rfl
@[simp] theorem setAxis_agenda (ax : AxisIx) (a : Axis) : (s.setAxis ax a).agenda = s.agenda := rfl
@[simp] theorem setAxis_pending (ax : AxisIx) (a : Axis) : (s.setAxis ax a).pending = s.pending := rfl
@[simp] theorem setAxis_busWrites (ax : AxisIx) (a : Axis) : (s.setAxis ax a).busWrites = s.busWrites := rfl

/-! ### updAxis -/

@[simp] theorem updAxis_mem (ax : AxisIx) (f : Axis → Axis) : (s.updAxis ax f).mem = s.mem := rfl
@[simp] theorem updAxis_modState (ax : AxisIx) (f : Axis → Axis) : (s.updAxis ax f).modState = s.modState := rfl
@[simp] theorem updAxis_toClear (ax : AxisIx) (f : Axis → Axis) : (s.updAxis ax f).toClear = s.toClear := rfl
@[simp] theorem updAxis_clock (ax : AxisIx) (f : Axis → Axis) : (s.updAxis ax f).clock = s.clock := rfl
@[simp] theorem updAxis_readback (ax : AxisIx) (f : Axis → Axis) : (s.updAxis ax f).readback = s.readback := rfl
@[simp] theorem updAxis_setupRead (ax : AxisIx) (f : Axis → Axis) : (s.updAxis ax f).setupRead = s.setupRead := rfl
@[simp] theorem updAxis_visitRead (ax : AxisIx) (f : Axis → Axis) : (s.updAxis ax f).visitRead = s.visitRead := rfl
@[simp] theorem updAxis_supInterval (ax : AxisIx) (f : Axis → Axis) : (s.updAxis ax f).supInterval = s.supInterval := rfl
@[simp] theorem updAxis_supTimer (ax : AxisIx) (f : Axis → Axis) : (s.updAxis ax f).supTimer = s.supTimer := rfl
@[simp] theorem updAxis_faults (ax : AxisIx) (f : Axis → Axis) : (s.updAxis ax f).faults = s.faults := rfl
@[simp] theorem updAxis_postQueue (ax : AxisIx) (f : Axis → Axis) : (s.updAxis ax f).postQueue = s.postQueue := rfl
@[simp] theorem updAxis_walk (ax : AxisIx) (f : Axis → Axis) : (s.updAxis ax f).walk = s.walk := rfl
@[simp] theorem updAxis_outcome (ax : AxisIx) (f : Axis → Axis) : (s.updAxis ax f).outcome = s.outcome := rfl
@[simp] theorem updAxis_held (ax : AxisIx) (f : Axis → Axis) : (s.updAxis ax f).held = s.held := rfl
@[simp] theorem updAxis_chain (ax : AxisIx) (f : Axis → Axis) : (s.updAxis ax f).chain = s.chain := rfl
@[simp] theorem updAxis_causes (ax : AxisIx) (f : Axis → Axis) : (s.updAxis ax f).causes = s.causes := rfl
@[simp] theorem updAxis_mask (ax : AxisIx) (f : Axis → Axis) : (s.updAxis ax f).mask = s.mask := rfl
@[simp] theorem updAxis_collectWord (ax : AxisIx) (f : Axis → Axis) : (s.updAxis ax f).collectWord = s.collectWord := rfl
@[simp] theorem updAxis_watches (ax : AxisIx) (f : Axis → Axis) : (s.updAxis ax f).watches = s.watches := rfl
@[simp] theorem updAxis_gates (ax : AxisIx) (f : Axis → Axis) : (s.updAxis ax f).gates = s.gates := rfl
@[simp] theorem updAxis_waiting (ax : AxisIx) (f : Axis → Axis) : (s.updAxis ax f).waiting = s.waiting := rfl
@[simp] theorem updAxis_triggers (ax : AxisIx) (f : Axis → Axis) : (s.updAxis ax f).triggers = s.triggers := rfl
@[simp] theorem updAxis_events (ax : AxisIx) (f : Axis → Axis) : (s.updAxis ax f).events = s.events := rfl
@[simp] theorem updAxis_agenda (ax : AxisIx) (f : Axis → Axis) : (s.updAxis ax f).agenda = s.agenda := rfl
@[simp] theorem updAxis_pending (ax : AxisIx) (f : Axis → Axis) : (s.updAxis ax f).pending = s.pending := rfl
@[simp] theorem updAxis_busWrites (ax : AxisIx) (f : Axis → Axis) : (s.updAxis ax f).busWrites = s.busWrites := rfl

/-! ### setGate -/

@[simp] theorem setGate_mem (g : Fin 16) (v : Bool) : (s.setGate g v).mem = s.mem := rfl
@[simp] theorem setGate_modState (g : Fin 16) (v : Bool) : (s.setGate g v).modState = s.modState := rfl
@[simp] theorem setGate_toClear (g : Fin 16) (v : Bool) : (s.setGate g v).toClear = s.toClear := rfl
@[simp] theorem setGate_clock (g : Fin 16) (v : Bool) : (s.setGate g v).clock = s.clock := rfl
@[simp] theorem setGate_readback (g : Fin 16) (v : Bool) : (s.setGate g v).readback = s.readback := rfl
@[simp] theorem setGate_setupRead (g : Fin 16) (v : Bool) : (s.setGate g v).setupRead = s.setupRead := rfl
@[simp] theorem setGate_visitRead (g : Fin 16) (v : Bool) : (s.setGate g v).visitRead = s.visitRead := rfl
@[simp] theorem setGate_supInterval (g : Fin 16) (v : Bool) : (s.setGate g v).supInterval = s.supInterval := rfl
@[simp] theorem setGate_supTimer (g : Fin 16) (v : Bool) : (s.setGate g v).supTimer = s.supTimer := rfl
@[simp] theorem setGate_faults (g : Fin 16) (v : Bool) : (s.setGate g v).faults = s.faults := rfl
@[simp] theorem setGate_postQueue (g : Fin 16) (v : Bool) : (s.setGate g v).postQueue = s.postQueue := rfl
@[simp] theorem setGate_walk (g : Fin 16) (v : Bool) : (s.setGate g v).walk = s.walk := rfl
@[simp] theorem setGate_outcome (g : Fin 16) (v : Bool) : (s.setGate g v).outcome = s.outcome := rfl
@[simp] theorem setGate_held (g : Fin 16) (v : Bool) : (s.setGate g v).held = s.held := rfl
@[simp] theorem setGate_chain (g : Fin 16) (v : Bool) : (s.setGate g v).chain = s.chain := rfl
@[simp] theorem setGate_causes (g : Fin 16) (v : Bool) : (s.setGate g v).causes = s.causes := rfl
@[simp] theorem setGate_mask (g : Fin 16) (v : Bool) : (s.setGate g v).mask = s.mask := rfl
@[simp] theorem setGate_collectWord (g : Fin 16) (v : Bool) : (s.setGate g v).collectWord = s.collectWord := rfl
@[simp] theorem setGate_watches (g : Fin 16) (v : Bool) : (s.setGate g v).watches = s.watches := rfl
@[simp] theorem setGate_waiting (g : Fin 16) (v : Bool) : (s.setGate g v).waiting = s.waiting := rfl
@[simp] theorem setGate_triggers (g : Fin 16) (v : Bool) : (s.setGate g v).triggers = s.triggers := rfl
@[simp] theorem setGate_events (g : Fin 16) (v : Bool) : (s.setGate g v).events = s.events := rfl
@[simp] theorem setGate_axes (g : Fin 16) (v : Bool) : (s.setGate g v).axes = s.axes := rfl
@[simp] theorem setGate_agenda (g : Fin 16) (v : Bool) : (s.setGate g v).agenda = s.agenda := rfl
@[simp] theorem setGate_pending (g : Fin 16) (v : Bool) : (s.setGate g v).pending = s.pending := rfl
@[simp] theorem setGate_busWrites (g : Fin 16) (v : Bool) : (s.setGate g v).busWrites = s.busWrites := rfl

/-! ### removeFault -/

@[simp] theorem removeFault_mem (sc : Scope) : (s.removeFault sc).mem = s.mem := rfl
@[simp] theorem removeFault_modState (sc : Scope) : (s.removeFault sc).modState = s.modState := rfl
@[simp] theorem removeFault_toClear (sc : Scope) : (s.removeFault sc).toClear = s.toClear := rfl
@[simp] theorem removeFault_clock (sc : Scope) : (s.removeFault sc).clock = s.clock := rfl
@[simp] theorem removeFault_readback (sc : Scope) : (s.removeFault sc).readback = s.readback := rfl
@[simp] theorem removeFault_setupRead (sc : Scope) : (s.removeFault sc).setupRead = s.setupRead := rfl
@[simp] theorem removeFault_visitRead (sc : Scope) : (s.removeFault sc).visitRead = s.visitRead := rfl
@[simp] theorem removeFault_supInterval (sc : Scope) : (s.removeFault sc).supInterval = s.supInterval := rfl
@[simp] theorem removeFault_supTimer (sc : Scope) : (s.removeFault sc).supTimer = s.supTimer := rfl
@[simp] theorem removeFault_postQueue (sc : Scope) : (s.removeFault sc).postQueue = s.postQueue := rfl
@[simp] theorem removeFault_walk (sc : Scope) : (s.removeFault sc).walk = s.walk := rfl
@[simp] theorem removeFault_outcome (sc : Scope) : (s.removeFault sc).outcome = s.outcome := rfl
@[simp] theorem removeFault_held (sc : Scope) : (s.removeFault sc).held = s.held := rfl
@[simp] theorem removeFault_chain (sc : Scope) : (s.removeFault sc).chain = s.chain := rfl
@[simp] theorem removeFault_causes (sc : Scope) : (s.removeFault sc).causes = s.causes := rfl
@[simp] theorem removeFault_mask (sc : Scope) : (s.removeFault sc).mask = s.mask := rfl
@[simp] theorem removeFault_collectWord (sc : Scope) : (s.removeFault sc).collectWord = s.collectWord := rfl
@[simp] theorem removeFault_watches (sc : Scope) : (s.removeFault sc).watches = s.watches := rfl
@[simp] theorem removeFault_gates (sc : Scope) : (s.removeFault sc).gates = s.gates := rfl
@[simp] theorem removeFault_waiting (sc : Scope) : (s.removeFault sc).waiting = s.waiting := rfl
@[simp] theorem removeFault_triggers (sc : Scope) : (s.removeFault sc).triggers = s.triggers := rfl
@[simp] theorem removeFault_events (sc : Scope) : (s.removeFault sc).events = s.events := rfl
@[simp] theorem removeFault_axes (sc : Scope) : (s.removeFault sc).axes = s.axes := rfl
@[simp] theorem removeFault_agenda (sc : Scope) : (s.removeFault sc).agenda = s.agenda := rfl
@[simp] theorem removeFault_pending (sc : Scope) : (s.removeFault sc).pending = s.pending := rfl
@[simp] theorem removeFault_busWrites (sc : Scope) : (s.removeFault sc).busWrites = s.busWrites := rfl

/-! ### updWatch -/

@[simp] theorem updWatch_mem (n : Nat) (f : Watch → Watch) : (s.updWatch n f).mem = s.mem := rfl
@[simp] theorem updWatch_modState (n : Nat) (f : Watch → Watch) : (s.updWatch n f).modState = s.modState := rfl
@[simp] theorem updWatch_toClear (n : Nat) (f : Watch → Watch) : (s.updWatch n f).toClear = s.toClear := rfl
@[simp] theorem updWatch_clock (n : Nat) (f : Watch → Watch) : (s.updWatch n f).clock = s.clock := rfl
@[simp] theorem updWatch_readback (n : Nat) (f : Watch → Watch) : (s.updWatch n f).readback = s.readback := rfl
@[simp] theorem updWatch_setupRead (n : Nat) (f : Watch → Watch) : (s.updWatch n f).setupRead = s.setupRead := rfl
@[simp] theorem updWatch_visitRead (n : Nat) (f : Watch → Watch) : (s.updWatch n f).visitRead = s.visitRead := rfl
@[simp] theorem updWatch_supInterval (n : Nat) (f : Watch → Watch) : (s.updWatch n f).supInterval = s.supInterval := rfl
@[simp] theorem updWatch_supTimer (n : Nat) (f : Watch → Watch) : (s.updWatch n f).supTimer = s.supTimer := rfl
@[simp] theorem updWatch_faults (n : Nat) (f : Watch → Watch) : (s.updWatch n f).faults = s.faults := rfl
@[simp] theorem updWatch_postQueue (n : Nat) (f : Watch → Watch) : (s.updWatch n f).postQueue = s.postQueue := rfl
@[simp] theorem updWatch_walk (n : Nat) (f : Watch → Watch) : (s.updWatch n f).walk = s.walk := rfl
@[simp] theorem updWatch_outcome (n : Nat) (f : Watch → Watch) : (s.updWatch n f).outcome = s.outcome := rfl
@[simp] theorem updWatch_held (n : Nat) (f : Watch → Watch) : (s.updWatch n f).held = s.held := rfl
@[simp] theorem updWatch_chain (n : Nat) (f : Watch → Watch) : (s.updWatch n f).chain = s.chain := rfl
@[simp] theorem updWatch_causes (n : Nat) (f : Watch → Watch) : (s.updWatch n f).causes = s.causes := rfl
@[simp] theorem updWatch_mask (n : Nat) (f : Watch → Watch) : (s.updWatch n f).mask = s.mask := rfl
@[simp] theorem updWatch_collectWord (n : Nat) (f : Watch → Watch) : (s.updWatch n f).collectWord = s.collectWord := rfl
@[simp] theorem updWatch_gates (n : Nat) (f : Watch → Watch) : (s.updWatch n f).gates = s.gates := rfl
@[simp] theorem updWatch_waiting (n : Nat) (f : Watch → Watch) : (s.updWatch n f).waiting = s.waiting := rfl
@[simp] theorem updWatch_triggers (n : Nat) (f : Watch → Watch) : (s.updWatch n f).triggers = s.triggers := rfl
@[simp] theorem updWatch_events (n : Nat) (f : Watch → Watch) : (s.updWatch n f).events = s.events := rfl
@[simp] theorem updWatch_axes (n : Nat) (f : Watch → Watch) : (s.updWatch n f).axes = s.axes := rfl
@[simp] theorem updWatch_agenda (n : Nat) (f : Watch → Watch) : (s.updWatch n f).agenda = s.agenda := rfl
@[simp] theorem updWatch_pending (n : Nat) (f : Watch → Watch) : (s.updWatch n f).pending = s.pending := rfl
@[simp] theorem updWatch_busWrites (n : Nat) (f : Watch → Watch) : (s.updWatch n f).busWrites = s.busWrites := rfl

/-! ### pulseTrigger -/

@[simp] theorem pulseTrigger_mem (o : Fin 4) (n : Nat) : (s.pulseTrigger o n).mem = s.mem := rfl
@[simp] theorem pulseTrigger_modState (o : Fin 4) (n : Nat) : (s.pulseTrigger o n).modState = s.modState := rfl
@[simp] theorem pulseTrigger_toClear (o : Fin 4) (n : Nat) : (s.pulseTrigger o n).toClear = s.toClear := rfl
@[simp] theorem pulseTrigger_clock (o : Fin 4) (n : Nat) : (s.pulseTrigger o n).clock = s.clock := rfl
@[simp] theorem pulseTrigger_readback (o : Fin 4) (n : Nat) : (s.pulseTrigger o n).readback = s.readback := rfl
@[simp] theorem pulseTrigger_setupRead (o : Fin 4) (n : Nat) : (s.pulseTrigger o n).setupRead = s.setupRead := rfl
@[simp] theorem pulseTrigger_visitRead (o : Fin 4) (n : Nat) : (s.pulseTrigger o n).visitRead = s.visitRead := rfl
@[simp] theorem pulseTrigger_supInterval (o : Fin 4) (n : Nat) : (s.pulseTrigger o n).supInterval = s.supInterval := rfl
@[simp] theorem pulseTrigger_supTimer (o : Fin 4) (n : Nat) : (s.pulseTrigger o n).supTimer = s.supTimer := rfl
@[simp] theorem pulseTrigger_faults (o : Fin 4) (n : Nat) : (s.pulseTrigger o n).faults = s.faults := rfl
@[simp] theorem pulseTrigger_postQueue (o : Fin 4) (n : Nat) : (s.pulseTrigger o n).postQueue = s.postQueue := rfl
@[simp] theorem pulseTrigger_walk (o : Fin 4) (n : Nat) : (s.pulseTrigger o n).walk = s.walk := rfl
@[simp] theorem pulseTrigger_outcome (o : Fin 4) (n : Nat) : (s.pulseTrigger o n).outcome = s.outcome := rfl
@[simp] theorem pulseTrigger_held (o : Fin 4) (n : Nat) : (s.pulseTrigger o n).held = s.held := rfl
@[simp] theorem pulseTrigger_chain (o : Fin 4) (n : Nat) : (s.pulseTrigger o n).chain = s.chain := rfl
@[simp] theorem pulseTrigger_causes (o : Fin 4) (n : Nat) : (s.pulseTrigger o n).causes = s.causes := rfl
@[simp] theorem pulseTrigger_mask (o : Fin 4) (n : Nat) : (s.pulseTrigger o n).mask = s.mask := rfl
@[simp] theorem pulseTrigger_collectWord (o : Fin 4) (n : Nat) : (s.pulseTrigger o n).collectWord = s.collectWord := rfl
@[simp] theorem pulseTrigger_watches (o : Fin 4) (n : Nat) : (s.pulseTrigger o n).watches = s.watches := rfl
@[simp] theorem pulseTrigger_gates (o : Fin 4) (n : Nat) : (s.pulseTrigger o n).gates = s.gates := rfl
@[simp] theorem pulseTrigger_waiting (o : Fin 4) (n : Nat) : (s.pulseTrigger o n).waiting = s.waiting := rfl
@[simp] theorem pulseTrigger_events (o : Fin 4) (n : Nat) : (s.pulseTrigger o n).events = s.events := rfl
@[simp] theorem pulseTrigger_axes (o : Fin 4) (n : Nat) : (s.pulseTrigger o n).axes = s.axes := rfl
@[simp] theorem pulseTrigger_agenda (o : Fin 4) (n : Nat) : (s.pulseTrigger o n).agenda = s.agenda := rfl
@[simp] theorem pulseTrigger_pending (o : Fin 4) (n : Nat) : (s.pulseTrigger o n).pending = s.pending := rfl
@[simp] theorem pulseTrigger_busWrites (o : Fin 4) (n : Nat) : (s.pulseTrigger o n).busWrites = s.busWrites := rfl

end Sys2Proof.Machine
end

