-- ==== Sys2Proof/Laws/Memory.lean ====
section
/-!
SUPPORT. Exchange memory: every operation keeps the canonical form, and what is read after a write.
-/

namespace Sys2Proof.Machine

theorem memWf_cons {x : Nat} {v : Byte} {t : List Host.Cell} :
    memWf ((x, v) :: t) = true ↔
      memAbove x t = true ∧ v ≠ unlistedByte ∧ x < Config.memSize ∧ memWf t = true := by
  simp [memWf, and_assoc]

theorem memAbove_mono {a b : Nat} {m : List Host.Cell} (h : a ≤ b) (hm : memAbove b m = true) :
    memAbove a m = true := by
  cases m with
  | nil => rfl
  | cons p t => simp only [memAbove, decide_eq_true_eq] at *; omega

/-- Below the first listed address every byte reads as unlisted. -/
theorem memGet_of_memAbove {a : Nat} : ∀ {m : List Host.Cell}, memWf m = true → memAbove a m = true →
    memGet m a = unlistedByte
  | [], _, _ => rfl
  | (x, v) :: t, hw, ha => by
      have hx : a < x := by simpa [memAbove] using ha
      rw [memWf_cons] at hw
      rw [memGet, if_neg (by omega)]
      exact memGet_of_memAbove hw.2.2.2 (memAbove_mono (by omega) hw.1)

theorem memAbove_memPut {lo a : Nat} {b : Byte} {m : List Host.Cell} (hm : memWf m = true)
    (hlo : memAbove lo m = true) (ha : lo < a) : memAbove lo (memPut m a b) = true := by
  cases m with
  | nil => simp only [memPut]; split <;> simp [memAbove, ha]
  | cons p t =>
      obtain ⟨x, v⟩ := p
      have hx : lo < x := by simpa [memAbove] using hlo
      rw [memWf_cons] at hm
      simp only [memPut]
      split
      · split <;> simp [memAbove, ha, hx]
      · split
        · split
          · exact memAbove_mono (by omega) hm.1
          · simp [memAbove, ha]
        · simp [memAbove, hx]

/-- A write keeps the canonical form. -/
theorem memWf_memPut {a : Nat} {b : Byte} (ha : a < Config.memSize) :
    ∀ {m : List Host.Cell}, memWf m = true → memWf (memPut m a b) = true
  | [], _ => by
      simp only [memPut]; split
      · rfl
      · simp_all [memWf, memAbove]
  | (x, v) :: t, hm => by
      rw [memWf_cons] at hm
      simp only [memPut]
      split
      · split
        · rw [memWf_cons]; exact hm
        · rename_i h1 h2
          rw [memWf_cons, memWf_cons]
          exact ⟨by simpa [memAbove] using h1, h2, ha, hm⟩
      · split
        · split
          · exact hm.2.2.2
          · rename_i h1 h2 h3
            rw [memWf_cons]; subst h2
            exact ⟨hm.1, h3, ha, hm.2.2.2⟩
        · rw [memWf_cons]
          exact ⟨memAbove_memPut hm.2.2.2 hm.1 (by omega), hm.2.1, hm.2.2.1, memWf_memPut ha hm.2.2.2⟩

/-- The byte written is read back. -/
theorem memGet_memPut_same {a : Nat} {b : Byte} : ∀ {m : List Host.Cell}, memWf m = true →
    memGet (memPut m a b) a = b
  | [], _ => by simp only [memPut]; split <;> simp_all [memGet]
  | (x, v) :: t, hm => by
      have hm' := hm
      rw [memWf_cons] at hm
      simp only [memPut]
      split
      · rename_i h1
        split
        · rename_i h2
          rw [h2]; exact memGet_of_memAbove hm' (by simpa [memAbove] using h1)
        · simp [memGet]
      · split
        · rename_i h1 h2
          split
          · rename_i h3
            rw [h3, h2]; exact memGet_of_memAbove hm.2.2.2 hm.1
          · simp [memGet]
        · rename_i h1 h2
          rw [memGet, if_neg (fun h => h2 h.symm)]
          exact memGet_memPut_same hm.2.2.2

/-- Every other byte is read as before. -/
theorem memGet_memPut_other {a c : Nat} {b : Byte} (h : c ≠ a) : ∀ {m : List Host.Cell},
    memGet (memPut m a b) c = memGet m c
  | [] => by
      simp only [memPut]; split
      · rfl
      · simp [memGet, Ne.symm h]
  | (x, v) :: t => by
      simp only [memPut]
      split
      · split
        · rfl
        · simp [memGet, Ne.symm h]
      · split
        · rename_i h2
          split
          · rw [memGet, if_neg (by omega)]
          · rw [memGet, memGet, if_neg (by omega), if_neg (by omega)]
        · rw [memGet, memGet, memGet_memPut_other h]

theorem memAbove_filter {lo : Nat} {p : Host.Cell → Bool} : ∀ {m : List Host.Cell}, memWf m = true →
    memAbove lo m = true → memAbove lo (m.filter p) = true
  | [], _, _ => rfl
  | (x, v) :: t, hm, h => by
      rw [memWf_cons] at hm
      have hx : lo < x := by simpa [memAbove] using h
      rw [List.filter_cons]
      split
      · simpa [memAbove] using hx
      · exact memAbove_filter hm.2.2.2 (memAbove_mono (by omega) hm.1)

/-- Zeroing a range keeps the canonical form. -/
theorem memWf_filter {p : Host.Cell → Bool} : ∀ {m : List Host.Cell}, memWf m = true →
    memWf (m.filter p) = true
  | [], _ => rfl
  | (x, v) :: t, hm => by
      rw [memWf_cons] at hm
      rw [List.filter_cons]
      split
      · rw [memWf_cons]
        exact ⟨memAbove_filter hm.2.2.2 hm.1, hm.2.1, hm.2.2.1, memWf_filter hm.2.2.2⟩
      · exact memWf_filter hm.2.2.2

theorem memWf_memZero {lo hi : Nat} {m : List Host.Cell} (hm : memWf m = true) : memWf (memZero lo hi m) = true :=
  memWf_filter hm

/-- A zeroed byte reads 0, every other byte as before. -/
theorem memGet_memZero {lo hi a : Nat} : ∀ {m : List Host.Cell},
    memGet (memZero lo hi m) a = if lo ≤ a ∧ a < hi then unlistedByte else memGet m a
  | [] => by simp [memZero, memGet]
  | (x, v) :: t => by
      have ih := memGet_memZero (lo := lo) (hi := hi) (a := a) (m := t)
      unfold memZero at ih ⊢
      rw [List.filter_cons]
      by_cases hk : (decide (x < lo) || decide (hi ≤ x)) = true
      · rw [if_pos hk, memGet, memGet, ih]
        by_cases hx : x = a
        · subst hx
          simp only [Bool.or_eq_true, decide_eq_true_eq] at hk
          simp only [if_true]
          rw [if_neg (by omega)]
        · rw [if_neg hx, if_neg hx]
      · rw [if_neg hk, ih, memGet]
        by_cases hx : x = a
        · subst hx
          simp only [Bool.or_eq_true, decide_eq_true_eq, not_or] at hk
          rw [if_pos (by omega), if_pos (by omega)]
        · rw [if_neg hx]

/-! ### Bytes and words of the state -/

theorem memoryWf_writeByte {s : State} {a : Nat} {b : Byte} (h : s.memoryWf = true) :
    (s.writeByte a b).memoryWf = true := by
  unfold State.memoryWf State.writeByte at *
  dsimp only
  split
  · exact memWf_memPut ‹_› h
  · exact h

theorem memoryWf_writeHalf {s : State} {a : Nat} {w : BitVec 16} (h : s.memoryWf = true) :
    (s.writeHalf a w).memoryWf = true := memoryWf_writeByte (memoryWf_writeByte h)

theorem memoryWf_writeWord {s : State} {a : Nat} {w : Word} (h : s.memoryWf = true) :
    (s.writeWord a w).memoryWf = true := memoryWf_writeHalf (memoryWf_writeHalf h)

theorem memoryWf_writeWords {ws : List (Nat × Word)} : ∀ {s : State}, s.memoryWf = true →
    (s.writeWords ws).memoryWf = true := by
  induction ws with
  | nil => exact fun h => h
  | cons w ws ih => exact fun h => ih (memoryWf_writeWord h)

theorem readByte_writeByte_same {s : State} {a : Nat} {b : Byte} (h : s.memoryWf = true)
    (ha : a < Config.memSize) : (s.writeByte a b).readByte a = b := by
  simp only [State.readByte, State.writeByte, if_pos ha]
  exact memGet_memPut_same h

@[simp] theorem readByte_writeByte_other {s : State} {a c : Nat} {b : Byte} (h : c ≠ a) :
    (s.writeByte a b).readByte c = s.readByte c := by
  simp only [State.readByte, State.writeByte]
  split
  · exact memGet_memPut_other h
  · rfl

/-- A half word write leaves every byte outside its two bytes. -/
theorem readByte_writeHalf_other {s : State} {a c : Nat} {w : BitVec 16} (h : c < a ∨ a + 2 ≤ c) :
    (s.writeHalf a w).readByte c = s.readByte c := by
  unfold State.writeHalf
  rw [readByte_writeByte_other (by omega), readByte_writeByte_other (by omega)]

/-- A word write leaves every byte outside its four bytes. -/
theorem readByte_writeWord_other {s : State} {a c : Nat} {w : Word} (h : c < a ∨ a + 4 ≤ c) :
    (s.writeWord a w).readByte c = s.readByte c := by
  unfold State.writeWord
  rw [readByte_writeHalf_other (by omega), readByte_writeHalf_other (by omega)]

theorem readByte_writeHalf_low {s : State} {a : Nat} {w : BitVec 16} (h : s.memoryWf = true)
    (ha : a + 1 < Config.memSize) : (s.writeHalf a w).readByte a = w.extractLsb' 0 8 := by
  unfold State.writeHalf
  rw [readByte_writeByte_other (by omega), readByte_writeByte_same h (by omega)]

theorem readByte_writeHalf_high {s : State} {a : Nat} {w : BitVec 16} (h : s.memoryWf = true)
    (ha : a + 1 < Config.memSize) : (s.writeHalf a w).readByte (a + 1) = w.extractLsb' 8 8 := by
  unfold State.writeHalf
  exact readByte_writeByte_same (memoryWf_writeByte h) ha

/-- The four bytes of a word put together again. -/
theorem bytes_append (w : Word) :
    BitVec.extractLsb' 8 8 (BitVec.extractLsb' 16 16 w) ++ BitVec.extractLsb' 0 8 (BitVec.extractLsb' 16 16 w) ++
      BitVec.extractLsb' 8 8 (BitVec.extractLsb' 0 16 w) ++ BitVec.extractLsb' 0 8 (BitVec.extractLsb' 0 16 w) = w := by
  apply BitVec.eq_of_getLsbD_eq
  intro i hi
  rw [show i = i % 32 by omega]
  have h32 : i % 32 < 32 := Nat.mod_lt _ (by decide)
  generalize i % 32 = j at h32
  simp only [BitVec.getLsbD_append, BitVec.getLsbD_extractLsb']
  interval_cases j <;> simp

/-- A word written is read back. -/
theorem readWord_writeWord_same {s : State} {a : Nat} {w : Word} (h : s.memoryWf = true)
    (ha : a + 3 < Config.memSize) : (s.writeWord a w).readWord a = w := by
  have h1 : (s.writeHalf a (w.extractLsb' 0 16)).memoryWf = true := memoryWf_writeHalf h
  unfold State.readWord State.writeWord
  rw [readByte_writeHalf_other (c := a) (by omega), readByte_writeHalf_other (c := a + 1) (by omega),
    readByte_writeHalf_low h (by omega), readByte_writeHalf_high h (by omega),
    readByte_writeHalf_low h1 (by omega),
    show a + 3 = a + 2 + 1 from rfl, readByte_writeHalf_high h1 (by omega)]
  exact bytes_append w

/-- A word away from the bytes written is read as before. -/
theorem readWord_writeWord_other {s : State} {a c : Nat} {w : Word} (h : c + 4 ≤ a ∨ a + 4 ≤ c) :
    (s.writeWord a w).readWord c = s.readWord c := by
  unfold State.readWord
  rw [readByte_writeWord_other (by omega), readByte_writeWord_other (by omega),
    readByte_writeWord_other (by omega), readByte_writeWord_other (by omega)]

end Sys2Proof.Machine
end

