-- ==== Sys2Proof/Laws/Bus.lean ====
section
/-!
SUPPORT. Backplane writes during a setup check and during a visit: what they leave for the reader in progress.
-/

namespace Sys2Proof.Machine

/-- A word put on record with what it reads goes on reading that. -/
theorem wordSeen_append_self (s : State) (seen : List (Nat × Word)) (a : Nat) :
    s.wordSeen (seen ++ [(a, s.wordSeen seen a)]) a = s.wordSeen seen a := by
  unfold State.wordSeen
  rw [List.find?_append]
  cases h : seen.find? (fun r => r.1 == a) <;> simp

/-- A word put on record changes no other word. -/
theorem wordSeen_append_other (s : State) (seen : List (Nat × Word)) (a b : Nat) (v : Word) (h : a ≠ b) :
    s.wordSeen (seen ++ [(b, v)]) a = s.wordSeen seen a := by
  unfold State.wordSeen
  rw [List.find?_append]
  cases seen.find? (fun r => r.1 == a) <;> simp [Ne.symm h]

/-- What a backplane write does for a setup check: nothing, or it puts the word, a setup field, on record with what
the check reads there. -/
theorem shadowSetup_cases (s : State) (b : BusWrite) :
    (s.shadowSetup b = s ∧
      ¬ (s.modState = .starting ∧ setupField b.offset = true ∧ (b.late = true ∨ s.checkPassed b.offset = true))) ∨
    (s.shadowSetup b = { s with setupRead := s.setupRead ++ [(b.offset, s.setupWord b.offset)] } ∧
      s.modState = .starting ∧ setupField b.offset = true ∧ (b.late = true ∨ s.checkPassed b.offset = true)) := by
  unfold State.shadowSetup
  split
  · next h => exact Or.inr ⟨rfl, by simpa [and_assoc] using h⟩
  · next h => exact Or.inl ⟨rfl, fun g => h (by simpa [and_assoc] using g)⟩

/-- What a backplane write does for a visit: nothing, or it puts the word on record with what the visit reads
there. -/
theorem shadowVisit_cases (s : State) (b : BusWrite) :
    (s.shadowVisit b = s ∧
      ¬ (s.inVisit b.offset = true ∧ (b.late = true ∨ s.visitPassed b.offset = true))) ∨
    (s.shadowVisit b = { s with visitRead := s.visitRead ++ [(b.offset, s.visitWord b.offset)] } ∧
      s.inVisit b.offset = true ∧ (b.late = true ∨ s.visitPassed b.offset = true)) := by
  unfold State.shadowVisit
  split
  · next h => exact Or.inr ⟨rfl, by simpa using h⟩
  · next h => exact Or.inl ⟨rfl, fun g => h (by simpa using g)⟩

/-- A word on record is passed, and with it every word before it. -/
theorem checkPassed_of_recorded (s : State) (a : Nat) (r : Nat × Word) (hr : r ∈ s.setupRead) (h : a ≤ r.1) :
    s.checkPassed a = true :=
  List.any_eq_true.mpr ⟨r, hr, by simpa using h⟩

end Sys2Proof.Machine
end

