-- ==== Sys2Proof/Laws/Frame.lean ====
section
/-!
SUPPORT. What the operations that carry an event through can do, said once: `Frame pos out s t`. Inputs,
setup, queues, walk and clock stay; memory keeps its canonical form; cells move between lists, table and
return chain without being lost; the annunciation queue only grows, with one entry for a scope.
-/

namespace Sys2Proof.Machine

/-! ### Four like things -/

@[simp] theorem Quad.get_set_same {α : Type} (q : Quad α) (i : Fin 4) (v : α) : (q.set i v).get i = v := by
  fin_cases i <;> rfl

theorem Quad.get_set_other {α : Type} (q : Quad α) {i j : Fin 4} (v : α) (h : j ≠ i) :
    (q.set i v).get j = q.get j := by
  fin_cases i <;> fin_cases j <;> first | rfl | exact absurd rfl h

@[simp] theorem Quad.get_map {α β : Type} (f : α → β) (q : Quad α) (i : Fin 4) : (q.map f).get i = f (q.get i) := by
  fin_cases i <;> rfl

@[simp] theorem axis_setAxis_same (s : State) (ax : AxisIx) (a : Axis) : (s.setAxis ax a).axis ax = a :=
  Quad.get_set_same _ _ _

theorem axis_setAxis_other (s : State) {ax j : AxisIx} (a : Axis) (h : j ≠ ax) :
    (s.setAxis ax a).axis j = s.axis j := Quad.get_set_other _ _ h

@[simp] theorem axis_updAxis_same (s : State) (ax : AxisIx) (f : Axis → Axis) :
    (s.updAxis ax f).axis ax = f (s.axis ax) := axis_setAxis_same _ _ _

theorem axis_updAxis_other (s : State) {ax j : AxisIx} (f : Axis → Axis) (h : j ≠ ax) :
    (s.updAxis ax f).axis j = s.axis j := axis_setAxis_other _ _ h

/-! ### Where cells are (R5) -/

/-- The cells of a list of entries. -/
def cellsOf (l : List Entry) : List Nat := l.map (·.cell)

theorem count_cells (s : State) (n : Nat) :
    s.cells.count n = (cellsOf (s.axis 0).list).count n + (cellsOf (s.axis 1).list).count n
      + (cellsOf (s.axis 2).list).count n + (cellsOf (s.axis 3).list).count n
      + (s.watches.map (·.cell)).count n + s.chain.count n := by
  simp [State.cells, allAxes, cellsOf, List.count_append]; omega

/-- Only the list of the axis replaced counts. -/
theorem count_cells_setAxis (s : State) (ax : AxisIx) (a : Axis) (n : Nat) :
    (s.setAxis ax a).cells.count n + (cellsOf (s.axis ax).list).count n
      = s.cells.count n + (cellsOf a.list).count n := by
  rw [count_cells, count_cells]
  fin_cases ax <;> simp [State.axis, State.setAxis, Quad.get, Quad.set] <;> omega

/-! ### The frame -/

/-- What no event that is carried through touches. -/
def State.fixed (s : State) :=
  (s.modState, s.toClear, s.clock, s.readback, s.setupRead, s.visitRead, s.supInterval, s.supTimer, s.postQueue, s.walk, s.outcome,
    s.held, s.mask, s.collectWord, s.events, s.pending, s.busWrites)

/-- What of an axis stands outside the sequencer's reach. -/
def Axis.outside (a : Axis) := (a.setup, a.inputs, a.encA, a.encB, a.prof.edgesA, a.prof.edgesB)

/-- A byte that differs between two states is one that the module writes, of a cell held in the first (R2, R6). -/
def State.writesHeld (s t : State) : Prop :=
  ∀ a, t.readByte a ≠ s.readByte a → ∃ n, 0 < s.cells.count n ∧ inModulePart n a

/-- What else a frame says: `pos`, that no position is assigned or counted; `table`, that no watch leaves the
table. -/
structure Keep where
  pos   : Bool
  table : Bool

/-- The frame between a state and a later one. `out` are cells that have left their list and are not yet
linked. -/
structure Frame (p : Keep) (out : List Nat) (s t : State) : Prop where
  fixed   : t.fixed = s.fixed
  wf      : s.memoryWf = true → t.memoryWf = true
  mem     : s.writesHeld t
  cells   : ∀ n, t.cells.count n + out.count n = s.cells.count n
  chain   : s.chain <+: t.chain
  ret     : s.causes.ret = true → t.causes.ret = true
  fault   : s.causes.fault = true → t.causes.fault = true
  state   : s.causes.state = true → t.causes.state = true
  watches : (t.watches.map (·.cell)).Sublist (s.watches.map (·.cell))
  scopes  : s.faults.map (·.scope) <+: t.faults.map (·.scope)
  nodup   : (s.faults.map (·.scope)).Nodup → (t.faults.map (·.scope)).Nodup
  outside : ∀ ax, (t.axis ax).outside = (s.axis ax).outside
  lists   : ∀ ax, (t.axis ax).list.length ≤ (s.axis ax).list.length
  err     : (∀ ax, (s.axis ax).errOk) → ∀ ax, (t.axis ax).errOk
  stand   : (∀ ax, (s.axis ax).standingOk) → ∀ ax, (t.axis ax).standingOk
  assigns : p.pos = true → ∀ ax, Job.assign ax ∈ t.agenda → Job.assign ax ∈ s.agenda
  table   : p.table = true → t.watches.map (·.cell) = s.watches.map (·.cell)
  pos     : p.pos = true → ∀ ax, (t.axis ax).commanded = (s.axis ax).commanded ∧
    (t.axis ax).feedback = (s.axis ax).feedback

@[simp] theorem Frame.refl (p : Keep) (s : State) : Frame p [] s s where
  fixed := rfl
  wf := id
  mem := fun _ h => absurd rfl h
  cells := by simp
  chain := List.prefix_refl _
  ret := id
  fault := id
  state := id
  watches := List.Sublist.refl _
  scopes := List.prefix_refl _
  nodup := id
  outside := fun _ => rfl
  lists := fun _ => Nat.le_refl _
  err := id
  stand := id
  assigns := fun _ _ => id
  table := fun _ => rfl
  pos := fun _ _ => ⟨rfl, rfl⟩

variable {p : Keep} {out : List Nat} {s x : State} {ax : AxisIx}

/-- A frame through an update of fields that the frame says nothing of. -/
theorem Frame.same {y : State} (h : Frame p out s x) (h1 : y.fixed = x.fixed) (h2 : y.mem = x.mem)
    (h3 : y.axes = x.axes) (h4 : y.chain = x.chain) (h5 : y.causes = x.causes) (h6 : y.watches = x.watches)
    (h7 : y.faults = x.faults) (h8 : p.pos = true → ∀ ax, Job.assign ax ∈ y.agenda → Job.assign ax ∈ x.agenda) :
    Frame p out s y where
  fixed := h1.trans h.fixed
  wf := fun k => by have := h.wf k; simp only [State.memoryWf, h2] at *; exact this
  mem := fun a k => h.mem a (by simp only [State.readByte, h2] at *; exact k)
  cells := fun n => by
    have := h.cells n
    simp only [State.cells, State.axis, h3, h4, h6] at *; exact this
  chain := h4 ▸ h.chain
  ret := fun k => h5 ▸ h.ret k
  fault := fun k => h5 ▸ h.fault k
  state := fun k => h5 ▸ h.state k
  watches := h6 ▸ h.watches
  scopes := h7 ▸ h.scopes
  nodup := h7 ▸ h.nodup
  outside := fun ax => by simp only [State.axis, h3]; exact h.outside ax
  lists := fun ax => by simp only [State.axis, h3]; exact h.lists ax
  err := fun k ax => by simp only [State.axis, h3]; exact h.err k ax
  stand := fun k ax => by simp only [State.axis, h3]; exact h.stand k ax
  assigns := fun hp ax k => h.assigns hp ax (h8 hp ax k)
  table := h6 ▸ h.table
  pos := fun k ax => by simp only [State.axis, h3]; exact h.pos k ax

/-- An axis replaced by one whose list has lost the cells `gone`. -/
theorem Frame.axis {a : Axis} {gone : List Nat} (h : Frame p out s x)
    (h1 : a.outside = (x.axis ax).outside) (h2 : cellsOf (x.axis ax).list = cellsOf a.list ++ gone ∨
      cellsOf (x.axis ax).list = gone ++ cellsOf a.list)
    (h3 : p.pos = true → a.commanded = (x.axis ax).commanded ∧ a.feedback = (x.axis ax).feedback)
    (h4 : (x.axis ax).errOk → a.errOk) (h5 : (x.axis ax).standingOk → a.standingOk) :
    Frame p (gone ++ out) s (x.setAxis ax a) where
  fixed := h.fixed
  wf := h.wf
  mem := h.mem
  cells := fun n => by
    have e := count_cells_setAxis x ax a n
    have c := h.cells n
    rcases h2 with h2 | h2 <;> rw [h2] at e <;> simp only [List.count_append] at * <;> omega
  chain := h.chain
  ret := h.ret
  fault := h.fault
  state := h.state
  watches := h.watches
  scopes := h.scopes
  nodup := h.nodup
  outside := fun j => by
    by_cases k : j = ax
    · subst k; rw [axis_setAxis_same, h1]; exact h.outside j
    · rw [axis_setAxis_other _ _ k]; exact h.outside j
  lists := fun j => by
    by_cases k : j = ax
    · subst k
      rw [axis_setAxis_same]
      have l := h.lists j
      have e : (cellsOf (x.axis j).list).length = (cellsOf a.list).length + gone.length := by
        rcases h2 with h2 | h2
        · rw [h2, List.length_append]
        · rw [h2, List.length_append, Nat.add_comm]
      simp only [cellsOf, List.length_map] at e
      omega
    · rw [axis_setAxis_other _ _ k]; exact h.lists j
  err := fun e j => by
    by_cases k : j = ax
    · subst k; rw [axis_setAxis_same]; exact h4 (h.err e j)
    · rw [axis_setAxis_other _ _ k]; exact h.err e j
  stand := fun e j => by
    by_cases k : j = ax
    · subst k; rw [axis_setAxis_same]; exact h5 (h.stand e j)
    · rw [axis_setAxis_other _ _ k]; exact h.stand e j
  assigns := h.assigns
  table := h.table
  pos := fun hp j => by
    by_cases k : j = ax
    · subst k; rw [axis_setAxis_same, (h3 hp).1, (h3 hp).2]; exact h.pos hp j
    · rw [axis_setAxis_other _ _ k]; exact h.pos hp j

/-- An axis update that the frame allows: no input, no setup, no position, no cell of the list. -/
def AxisFrame (p : Keep) (a b : Axis) : Prop :=
  b.outside = a.outside ∧ cellsOf b.list = cellsOf a.list ∧
    (p.pos = true → b.commanded = a.commanded ∧ b.feedback = a.feedback) ∧ (a.errOk → b.errOk) ∧
    (a.standingOk → b.standingOk)

@[simp] theorem frame_updAxis {f : Axis → Axis} (h : Frame p out s x)
    (hf : AxisFrame p (x.axis ax) (f (x.axis ax))) : Frame p out s (x.updAxis ax f) := by
  have := h.axis (ax := ax) (a := f (x.axis ax)) (gone := []) hf.1 (Or.inl (by simp [hf.2.1])) hf.2.2.1
    hf.2.2.2.1 hf.2.2.2.2
  simpa [State.updAxis] using this

@[simp] theorem frame_updProf {f : Profile → Profile} (h : Frame p out s x)
    (hf : ∀ q, (f q).edgesA = q.edgesA ∧ (f q).edgesB = q.edgesB)
    (hs : ∀ q : Profile, (q.phase = .standing → q.speedSq = 0 ∧ q.plan = none) →
      (f q).phase = .standing → (f q).speedSq = 0 ∧ (f q).plan = none) : Frame p out s (x.updProf ax f) :=
  frame_updAxis h ⟨by simp [Axis.outside, hf], rfl, fun _ => ⟨rfl, rfl⟩, id, fun k => by
    simpa [Axis.standingOk, Axis.moving] using hs _ (by simpa [Axis.standingOk, Axis.moving] using k)⟩

@[simp] theorem frame_updRef {f : RefCtl → RefCtl} (h : Frame p out s x) : Frame p out s (x.updRef ax f) :=
  frame_updAxis h ⟨rfl, rfl, fun _ => ⟨rfl, rfl⟩, id, id⟩

@[simp] theorem frame_setAxisState {st : AxisState} {c : StopCause} (h : Frame p out s x) :
    Frame p out s (x.setAxisState ax st c) := frame_updAxis h ⟨rfl, rfl, fun _ => ⟨rfl, rfl⟩, id, id⟩

@[simp] theorem frame_updHead {f : Entry → Entry} (h : Frame p out s x) (hf : ∀ e, x.head? ax = some e → (f e).cell = e.cell) :
    Frame p out s (x.updHead ax f) := by
  refine frame_updAxis h ⟨rfl, ?_, fun _ => ⟨rfl, rfl⟩, id, id⟩
  cases hl : (x.axis ax).list with
  | nil => rfl
  | cons e es => simp [cellsOf, hf e (by simp [State.head?, hl])]

@[simp] theorem frame_addJobs {js : List Job} (h : Frame p out s x) (hj : p.pos = true → ∀ ax, Job.assign ax ∉ js) :
    Frame p out s (x.addJobs js) :=
  h.same rfl rfl rfl rfl rfl rfl rfl (fun hp ax k => by
    rcases List.mem_append.1 k with k | k
    · exact k
    · exact absurd k (hj hp ax))

@[simp] theorem frame_report {q : Quantity} {v : Sample} (h : Frame p out s x) : Frame p out s (x.report q v) :=
  frame_addJobs h (by simp)

@[simp] theorem frame_addChecks (h : Frame p out s x) : Frame p out s (x.addChecks ax) :=
  frame_addJobs h (by simp)

@[simp] theorem frame_waiting {w : List (Fin 16 × AxisIx)} (h : Frame p out s x) :
    Frame p out s { x with waiting := w } := h.same rfl rfl rfl rfl rfl rfl rfl (fun _ _ => id)

theorem frame_agenda {w : List Job} (h : Frame p out s x)
    (hw : p.pos = true → ∀ ax, Job.assign ax ∈ w → Job.assign ax ∈ x.agenda) : Frame p out s { x with agenda := w } :=
  h.same rfl rfl rfl rfl rfl rfl rfl hw

@[simp] theorem frame_setGate {g : Fin 16} {v : Bool} (h : Frame p out s x) : Frame p out s (x.setGate g v) :=
  h.same rfl rfl rfl rfl rfl rfl rfl (fun _ _ => id)

@[simp] theorem frame_pulseTrigger {o : Fin 4} {n : Nat} (h : Frame p out s x) :
    Frame p out s (x.pulseTrigger o n) := h.same rfl rfl rfl rfl rfl rfl rfl (fun _ _ => id)

/-- Frames follow one another. -/
theorem Frame.trans {y : State} (h : Frame p out s x) (hy : Frame p [] x y) : Frame p out s y where
  fixed := hy.fixed.trans h.fixed
  wf := fun k => hy.wf (h.wf k)
  mem := fun a k => by
    by_cases e : y.readByte a = x.readByte a
    · exact h.mem a (e ▸ k)
    · obtain ⟨n, hn, ha⟩ := hy.mem a e
      exact ⟨n, by have := h.cells n; omega, ha⟩
  cells := fun n => by have := h.cells n; have := hy.cells n; simp at *; omega
  chain := h.chain.trans hy.chain
  ret := fun k => hy.ret (h.ret k)
  fault := fun k => hy.fault (h.fault k)
  state := fun k => hy.state (h.state k)
  watches := hy.watches.trans h.watches
  scopes := h.scopes.trans hy.scopes
  nodup := fun k => hy.nodup (h.nodup k)
  outside := fun ax => (hy.outside ax).trans (h.outside ax)
  lists := fun ax => (hy.lists ax).trans (h.lists ax)
  err := fun k => hy.err (h.err k)
  stand := fun k => hy.stand (h.stand k)
  assigns := fun hp ax k => h.assigns hp ax (hy.assigns hp ax k)
  table := fun k => (hy.table k).trans (h.table k)
  pos := fun k ax => ⟨((hy.pos k ax).1).trans (h.pos k ax).1, ((hy.pos k ax).2).trans (h.pos k ax).2⟩

@[simp] theorem frame_setReturnCause (h : Frame p out s x) : Frame p out s x.setReturnCause :=
  h.trans { Frame.refl p x with ret := fun _ => rfl }

@[simp] theorem frame_setFaultCause (h : Frame p out s x) : Frame p out s x.setFaultCause :=
  h.trans { Frame.refl p x with fault := fun _ => rfl }

/-! ### Memory and the return chain -/

/-- A cell that the module holds: it is in its place, or has left it and is not yet linked. -/
def heldIn (x : State) (out : List Nat) (n : Nat) : Prop := 0 < x.cells.count n + out.count n

/-- A byte of the module's part of a held cell written. -/
theorem frame_writeByte {n a : Nat} {b : Byte} (h : Frame p out s x) (hn : heldIn x out n)
    (ha : inModulePart n a) : Frame p out s (x.writeByte a b) :=
  { h with
    wf := fun k => memoryWf_writeByte (h.wf k)
    mem := fun c k => by
      by_cases e : c = a
      · subst e; exact ⟨n, by have := h.cells n; unfold heldIn at hn; omega, ha⟩
      · rw [readByte_writeByte_other e] at k; exact h.mem c k }

theorem frame_writeHalf {n a : Nat} {w : BitVec 16} (h : Frame p out s x) (hn : heldIn x out n)
    (h0 : inModulePart n a) (h1 : inModulePart n (a + 1)) : Frame p out s (x.writeHalf a w) :=
  frame_writeByte (frame_writeByte h hn h0) hn h1

theorem frame_writeWord {n a : Nat} {w : Word} (h : Frame p out s x) (hn : heldIn x out n)
    (ha : ∀ k, k < 4 → inModulePart n (a + k)) : Frame p out s (x.writeWord a w) :=
  frame_writeHalf (frame_writeHalf h hn (ha 0 (by omega)) (ha 1 (by omega))) hn (ha 2 (by omega)) (ha 3 (by omega))

theorem frame_writeResult {n : Nat} {r : Result} (h : Frame p out s x) (hn : heldIn x out n) :
    Frame p out s (x.writeResult n r) := by
  have k : ∀ o, o = 0x2C ∨ o = 0x30 ∨ o = 0x34 ∨ o = 0x38 ∨ o = 0x3C → ∀ k, k < 4 → inModulePart n (cellBase n + o + k) := by
    intro o ho k hk
    unfold inModulePart inResultPart cellBase
    omega
  simp only [State.writeResult, resultWords, State.writeWords, List.foldl_cons, List.foldl_nil]
  exact frame_writeWord (frame_writeWord (frame_writeWord (frame_writeWord (frame_writeWord h hn (k _ (by simp))) hn
    (k _ (by simp))) hn (k _ (by simp))) hn (k _ (by simp))) hn (k _ (by simp))

theorem frame_writeCellState {n : Nat} {b : Byte} (h : Frame p out s x) (hn : heldIn x out n) :
    Frame p out s (x.writeCellState n b) := frame_writeByte h hn (Or.inl rfl)

theorem frame_writeReturnLink {n l : Nat} (h : Frame p out s x) (hn : heldIn x out n) :
    Frame p out s (x.writeReturnLink n l) :=
  frame_writeHalf h hn (by unfold inModulePart inResultPart cellBase; omega)
    (by unfold inModulePart inResultPart cellBase; omega)

/-- A cell that is out of every list is put on the chain. -/
theorem Frame.link {n : Nat} (h : Frame p (n :: out) s x) : Frame p out s { x with chain := x.chain ++ [n] } :=
  { h with
    cells := fun k => by
      have c := h.cells k
      have e : ({ x with chain := x.chain ++ [n] } : State).cells = x.cells ++ [n] := by
        simp [State.cells, State.axis]
      rw [e, List.count_append]
      simp only [List.count_cons, List.count_nil] at *
      omega
    chain := h.chain.trans (List.prefix_append _ _) }

theorem frame_linkCell {n : Nat} {b : Bool} (h : Frame p (n :: out) s x) : Frame p out s (x.linkCell n b) := by
  unfold State.linkCell
  dsimp only
  have hn : heldIn x (n :: out) n := by simp [heldIn]
  have h1 : Frame p (n :: out) s (x.writeReturnLink n noIndex) := frame_writeReturnLink h hn
  cases hc : (x.writeReturnLink n noIndex).chain.getLast? with
  | none =>
      dsimp only
      split
      · exact frame_setReturnCause h1.link
      · exact h1.link
  | some tail =>
      have ht : heldIn (x.writeReturnLink n noIndex) (n :: out) tail := by
        have hm : tail ∈ (x.writeReturnLink n noIndex).cells :=
          List.mem_append_right _ (List.mem_of_getLast? hc)
        have := List.count_pos_iff.2 hm
        unfold heldIn; omega
      dsimp only
      split
      · exact frame_setReturnCause (frame_writeReturnLink h1 ht).link
      · exact (frame_writeReturnLink h1 ht).link

theorem frame_endCell {n : Nat} {r : Result} {b : Bool} (h : Frame p (n :: out) s x) :
    Frame p out s (x.endCell n r b) := by
  unfold State.endCell
  have hn : ∀ y : State, heldIn y (n :: out) n := fun y => by simp [heldIn]
  exact frame_linkCell (frame_writeCellState (frame_writeResult h (hn _)) (hn _))

/-! ### The annunciation queue -/

@[simp] theorem frame_recordFault {sc : Scope} {c d n : Nat} (h : Frame p out s x) :
    Frame p out s (x.recordFault sc c d n) := by
  refine h.trans ?_
  unfold State.recordFault
  cases he : x.faultEntry sc with
  | none =>
      refine frame_setFaultCause { Frame.refl p x with scopes := ?_, nodup := ?_ }
      · simp
      · intro hn
        have : ∀ e ∈ x.faults, e.scope ≠ sc := by
          intro e hm hs
          have := List.find?_eq_none.1 he e hm
          simp [hs] at this
        simp only [List.map_append, List.map_cons, List.map_nil]
        rw [List.nodup_append]
        exact ⟨hn, by simp, by simpa using fun e hm => this e hm⟩
  | some old =>
      have hm : (x.faults.map (fun e => if e.scope == sc then e.again c else e)).map (·.scope)
          = x.faults.map (·.scope) := by
        rw [List.map_map]
        apply List.map_congr_left
        intro e _
        simp only [Function.comp]
        split <;> rfl
      have hy : Frame p [] x { x with faults := x.faults.map (fun e => if e.scope == sc then e.again c else e) } :=
        { Frame.refl p x with
          scopes := by rw [hm]
          nodup := fun k => by rw [hm]; exact k }
      dsimp only
      split
      · exact frame_setFaultCause hy
      · exact hy

end Sys2Proof.Machine
end

