-- ==== Sys2Proof/Laws/FrameOps.lean ====
section
/-!
SUPPORT. The frame of every operation of the sequencer, the Reference Controller, the gates and the watches.
-/

namespace Sys2Proof.Machine

variable {p : Keep} {b' : Bool} {out : List Nat} {s x : State} {ax : AxisIx}

@[simp] theorem axisFrame_refl (p : Keep) (a : Axis) : AxisFrame p a a := ⟨rfl, rfl, fun _ => ⟨rfl, rfl⟩, id, id⟩

/-- Two updates of an axis are one. -/
theorem updAxis_updAxis (x : State) (ax : AxisIx) (f g : Axis → Axis) :
    (x.updAxis ax f).updAxis ax g = x.updAxis ax (fun a => g (f a)) := by
  fin_cases ax <;> rfl

/-- The head of a list is held. -/
theorem heldIn_head {e : Entry} (h : x.head? ax = some e) : heldIn x out e.cell := by
  have hm : e.cell ∈ x.cells := by
    refine List.mem_append_left _ (List.mem_append_left _ (List.mem_flatMap.2 ⟨ax, by fin_cases ax <;> simp [allAxes], ?_⟩))
    exact List.mem_map_of_mem (List.mem_of_head? h)
  have := List.count_pos_iff.2 hm
  unfold heldIn; omega

/-- What is held stays held within a frame. -/
theorem Frame.heldIn {y : State} {o : List Nat} {n : Nat} (h : Frame p [] x y) (hn : heldIn x o n) :
    Machine.heldIn y o n := by
  have := h.cells n
  unfold Machine.heldIn at *
  simp at this
  omega

/-! ### Operations of Ops -/

/-- A speed set behind an update of the axis, the two taken as one. -/
theorem frame_updAxis_setSpeed {f : Axis → Axis} {sq : Nat} {ac : Int} {ph : RampPhase} (h : Frame p out s x)
    (hf : AxisFrame p (x.axis ax) { f (x.axis ax) with
      prof := { (f (x.axis ax)).prof with speedSq := sq, accel := ac, phase := ph } }) :
    Frame p out s ((x.updAxis ax f).setSpeed ax sq ac ph) := by
  have h1 : Frame p out s ((x.updAxis ax f).updProf ax (fun q => { q with speedSq := sq, accel := ac, phase := ph })) := by
    unfold State.updProf
    rw [updAxis_updAxis]
    exact frame_updAxis h hf
  unfold State.setSpeed
  dsimp only
  split
  · exact h1
  · exact frame_report h1

@[simp] theorem frame_setSpeed {sq : Nat} {ac : Int} {ph : RampPhase} (h : Frame p out s x)
    (hp : ph ≠ .standing) : Frame p out s (x.setSpeed ax sq ac ph) := by
  unfold State.setSpeed; dsimp only; split <;> simp (maxDischargeDepth := 20) [h, hp]

@[simp] theorem frame_stand (h : Frame p out s x) : Frame p out s (x.stand ax) := by
  unfold State.stand; dsimp only; split
  · exact frame_updAxis_setSpeed h ⟨rfl, rfl, fun _ => ⟨rfl, rfl⟩, id, fun _ _ => ⟨rfl, rfl⟩⟩
  · exact frame_updProf h (fun _ => ⟨rfl, rfl⟩) (fun q k e => ⟨(k e).1, rfl⟩)

/-! ### Orders -/

@[simp] theorem frame_beginStop {r : Rates} {b : Option Nat} (h : Frame p out s x) :
    Frame p out s (x.beginStop ax r b) := by
  unfold State.beginStop; dsimp only; simp (maxDischargeDepth := 20) [h]

@[simp] theorem frame_endEntry {c : EndCode} {r : Nat} {e : Entry} (h : Frame p (e.cell :: out) s x) :
    Frame p out s (x.endEntry ax c r e) := by
  exact frame_endCell h

@[simp] theorem frame_dropBinding (h : Frame p out s x) : Frame p out s (x.dropBinding ax) := by
  unfold State.dropBinding
  split
  · rename_i e n rest hl
    split
    · exact frame_updAxis h ⟨rfl, by simp [hl, cellsOf], fun _ => ⟨rfl, rfl⟩, id, id⟩
    · exact h
  · exact h

@[simp] theorem frame_endHead {c : EndCode} {r : Nat} (h : Frame p out s x) :
    Frame p out s (x.endHead ax c r) := by
  unfold State.endHead
  split
  · exact h
  · rename_i e rest hl
    dsimp only
    have h1 := h.axis (ax := ax) (gone := [e.cell])
      (a := { x.axis ax with
        list := rest
        ref := if (e.kind = .reference && e.status = .active) = true then (x.axis ax).ref.afterRun
          else (x.axis ax).ref
        referenced := if ((e.kind = .reference && e.status = .active) && (c = .stopped || c = .faulted)) = true
          then false else (x.axis ax).referenced })
      rfl (Or.inr (by simp [hl, cellsOf])) (fun _ => ⟨rfl, rfl⟩) id id
    split
    · exact frame_endEntry (frame_waiting h1)
    · exact frame_endEntry h1

/-- Cells that have left a list are linked one after another. -/
theorem frame_endFlushed {es : List Entry} : ∀ {out : List Nat} {x : State},
    Frame p (cellsOf es ++ out) s x → Frame p out s (x.endFlushed ax es) := by
  induction es with
  | nil => exact fun h => h
  | cons e es ih => exact fun h => ih (frame_endEntry (e := { e with bound := false }) h)

theorem cellsOf_take_tail (l : List Entry) : cellsOf l = cellsOf (l.take 1) ++ cellsOf l.tail := by
  cases l <;> rfl

@[simp] theorem frame_flushTail (h : Frame p out s x) : Frame p out s (x.flushTail ax) := by
  unfold State.flushTail
  dsimp only
  apply frame_endFlushed
  refine (frame_dropBinding (ax := ax) h).axis rfl (Or.inl ?_) (fun _ => ⟨rfl, rfl⟩) id id
  exact cellsOf_take_tail _

@[simp] theorem frame_flushAll (h : Frame p out s x) : Frame p out s (x.flushAll ax) := by
  unfold State.flushAll
  dsimp only
  apply frame_endFlushed
  exact h.axis rfl (Or.inl (by simp [cellsOf])) (fun _ => ⟨rfl, rfl⟩) id id

@[simp] theorem frame_finishHead {c : EndCode} (h : Frame p out s x) : Frame p out s (x.finishHead ax c) := by
  unfold State.finishHead; simp (maxDischargeDepth := 20) [h]

@[simp] theorem frame_becomeFaulted (h : Frame p out s x) : Frame p out s (x.becomeFaulted ax) := by
  unfold State.becomeFaulted
  exact frame_flushAll (frame_updAxis (frame_stand h) ⟨rfl, rfl, fun _ => ⟨rfl, rfl⟩, id, id⟩)

@[simp] theorem frame_faultList {c : Nat} (h : Frame p out s x) : Frame p out s (x.faultList ax c) := by
  unfold State.faultList; dsimp only; (repeat' split) <;> simp (maxDischargeDepth := 20) [h]

@[simp] theorem frame_faultRamp {r : Rates} (h : Frame p out s x) : Frame p out s (x.faultRamp ax r) := by
  unfold State.faultRamp
  dsimp only
  have h1 : Frame p out s (x.updAxis ax (fun a =>
      { a with state := .stopping, stopCause := .fault, pendingFault := true })) :=
    frame_updAxis h ⟨rfl, rfl, fun _ => ⟨rfl, rfl⟩, id, id⟩
  split <;> simp (maxDischargeDepth := 20) [h1]

@[simp] theorem frame_firstFault {c : Nat} {r : Reaction} (h : Frame p out s x) :
    Frame p out s (x.firstFault ax c r) := by
  unfold State.firstFault; dsimp only; split <;> simp (maxDischargeDepth := 20) [h]

@[simp] theorem frame_react {c : Nat} {r : Reaction} (h : Frame p out s x) : Frame p out s (x.react ax c r) := by
  unfold State.react; (repeat' split) <;> simp (maxDischargeDepth := 20) [h]

@[simp] theorem frame_axisFault {c d : Nat} {r : Reaction} (h : Frame p out s x) :
    Frame p out s (x.axisFault ax c d r) := by
  unfold State.axisFault; simp (maxDischargeDepth := 20) [h]

@[simp] theorem frame_limitFault {d : Dir} (h : Frame p out s x) : Frame p out s (x.limitFault ax d) := by
  unfold State.limitFault
  dsimp only
  split
  · exact frame_axisFault (frame_updAxis h ⟨rfl, rfl, fun _ => ⟨rfl, rfl⟩, id, id⟩)
  · exact frame_axisFault h

@[simp] theorem frame_notReadyFault (h : Frame p out s x) : Frame p out s (x.notReadyFault ax) := by
  unfold State.notReadyFault; simp (maxDischargeDepth := 20) [h]

@[simp] theorem frame_grantClaim {e : Entry} (h : Frame p out s x) : Frame p out s (x.grantClaim e) := by
  unfold State.grantClaim; split <;> simp (maxDischargeDepth := 20) [h]

/-! ### Reference runs -/

@[simp] theorem frame_setPhase {ph : RefPhase} (h : Frame p out s x) : Frame p out s (x.setPhase ax ph) := by
  unfold State.setPhase; simp (maxDischargeDepth := 20) [h]

@[simp] theorem frame_refFail {ph : RefPhase} {r : Nat} (h : Frame p out s x) :
    Frame p out s (x.refFail ax ph r) := by unfold State.refFail; simp (maxDischargeDepth := 20) [h]

@[simp] theorem frame_seekBackFail (h : Frame p out s x) : Frame p out s (x.seekBackFail ax) := by
  unfold State.seekBackFail
  exact frame_refFail (frame_updAxis h ⟨rfl, rfl, fun _ => ⟨rfl, rfl⟩, id, id⟩)

/-- A plan has a phase of motion at each of its pulses. -/
@[simp] theorem phaseAt_ne_standing (q : Plan) (m : Nat) : q.phaseAt m ≠ .standing := by
  unfold Plan.phaseAt; (repeat' split) <;> simp

/-- A profile that moves is within the frame. -/
theorem axisFrame_moves {a : Axis} {q : Profile} (h1 : q.phase ≠ .standing) (h2 : q.edgesA = a.prof.edgesA)
    (h3 : q.edgesB = a.prof.edgesB) : AxisFrame p a { a with prof := q } :=
  ⟨by simp [Axis.outside, h2, h3], rfl, fun _ => ⟨rfl, rfl⟩, id, fun _ k => by simp [Axis.moving, h1] at k⟩

@[simp] theorem frame_beginMotion {d : Dir} {pl : Option Plan} {v : Nat} {ph : RampPhase} (h : Frame p out s x)
    (hp : ph ≠ .standing) : Frame p out s (x.beginMotion ax d pl v ph) := by
  simp only [State.beginMotion, State.updProf]
  exact frame_updAxis_setSpeed h (axisFrame_moves hp rfl rfl)

@[simp] theorem frame_refComplete (h : Frame p out s x) : Frame p out s (x.refComplete ax) := by
  unfold State.refComplete; simp (maxDischargeDepth := 20) [h]

@[simp] theorem frame_beginApproach {e : Entry} (h : Frame p out s x) : Frame p out s (x.beginApproach ax e) := by
  unfold State.beginApproach; dsimp only; split <;> simp (maxDischargeDepth := 20) [h]

@[simp] theorem frame_beginSeekBack {e : Entry} (h : Frame p out s x) : Frame p out s (x.beginSeekBack ax e) := by
  unfold State.beginSeekBack; dsimp only; (repeat' split) <;> simp (maxDischargeDepth := 20) [h]

@[simp] theorem frame_beginCreep {e : Entry} (h : Frame p out s x) : Frame p out s (x.beginCreep ax e) := by
  unfold State.beginCreep; dsimp only; (repeat' split) <;> simp (maxDischargeDepth := 20) [h]

@[simp] theorem frame_beginClear {e : Entry} (h : Frame p out s x) : Frame p out s (x.beginClear ax e) := by
  unfold State.beginClear; dsimp only; (repeat' split) <;> simp (maxDischargeDepth := 20) [h]

@[simp] theorem frame_beginOffset {e : Entry} (h : Frame p out s x) : Frame p out s (x.beginOffset ax e) := by
  unfold State.beginOffset; dsimp only; (repeat' split) <;> simp (maxDischargeDepth := 20) [h]

@[simp] theorem frame_beginClearPulse {e : Entry} (h : Frame p out s x) :
    Frame p out s (x.beginClearPulse ax e) := by unfold State.beginClearPulse; simp (maxDischargeDepth := 20) [h]

@[simp] theorem frame_beginPhase {e : Entry} {ph : RefPhase} (h : Frame p out s x) :
    Frame p out s (x.beginPhase ax e ph) := by
  unfold State.beginPhase; split <;> simp (maxDischargeDepth := 20) [h]

@[simp] theorem frame_pauseThen {e : Entry} {ph : RefPhase} (h : Frame p out s x) :
    Frame p out s (x.pauseThen ax e ph) := by
  unfold State.pauseThen; split <;> simp (maxDischargeDepth := 20) [h]

@[simp] theorem frame_startReference {e : Entry} (h : Frame p out s x) :
    Frame p out s (x.startReference ax e) := by
  unfold State.startReference; dsimp only; (repeat' split) <;> simp (maxDischargeDepth := 20) [h]

@[simp] theorem frame_refStood {e : Entry} (h : Frame p out s x) : Frame p out s (x.refStood ax e) := by
  unfold State.refStood; dsimp only; (repeat' split) <;> simp (maxDischargeDepth := 20) [h]

@[simp] theorem frame_refRampStop {e : Entry} (h : Frame p out s x) : Frame p out s (x.refRampStop ax e) := by
  unfold State.refRampStop; dsimp only; split <;> simp (maxDischargeDepth := 20) [h]

@[simp] theorem frame_refEdge (h : Frame p out s x) : Frame p out s (x.refEdge ax) := by
  unfold State.refEdge; simp (maxDischargeDepth := 20) [h]

@[simp] theorem frame_beginIndex (h : Frame p out s x) : Frame p out s (x.beginIndex ax) := by
  unfold State.beginIndex; dsimp only; split <;> simp (maxDischargeDepth := 20) [h]

@[simp] theorem frame_refInputOf {e : Entry} (h : Frame p out s x) : Frame p out s (x.refInputOf ax e) := by
  unfold State.refInputOf; dsimp only; (repeat' split) <;> simp (maxDischargeDepth := 20) [h]

@[simp] theorem frame_refInput (h : Frame p out s x) : Frame p out s (x.refInput ax) := by
  unfold State.refInput; dsimp only; (repeat' split) <;> simp (maxDischargeDepth := 20) [h]

/-- An assignment of positions stays within the frame that leaves positions open. -/
@[simp] theorem frame_assignPositions {c f : Word} {b : Bool} (h : Frame ⟨false, b'⟩ out s x) :
    Frame ⟨false, b'⟩ out s (x.assignPositions ax c f b) := by
  unfold State.assignPositions
  dsimp only
  have h1 : Frame ⟨false, b'⟩ out s (x.updAxis ax (fun a =>
      { a with commanded := c, feedback := f, referenced := b, followErr := followErrorOf a.setup c f })) :=
    frame_updAxis h ⟨rfl, rfl, (fun k => by cases k), fun _ => rfl, id⟩
  refine h1.trans { Frame.refl ⟨false, b'⟩ _ with mem := fun _ k => absurd rfl k, cells := ?_, watches := ?_, table := ?_ }
  · intro n
    simp only [State.cells, List.map_map, List.count_nil, Nat.add_zero]
    congr 3
    apply List.map_congr_left
    intro w _
    simp only [Function.comp]
    split <;> rfl
  · simp only [List.map_map]
    rw [List.map_congr_left (g := fun w => w.cell)]
    intro w _
    simp only [Function.comp]
    split <;> rfl
  · intro _
    simp only [List.map_map]
    apply List.map_congr_left
    intro w _
    simp only [Function.comp]
    split <;> rfl

@[simp] theorem frame_assignReference (h : Frame ⟨false, b'⟩ out s x) :
    Frame ⟨false, b'⟩ out s (x.assignReference ax) := by
  unfold State.assignReference; dsimp only; (repeat' split) <;> simp (maxDischargeDepth := 20) [h]

@[simp] theorem frame_indexSpan (h : Frame p out s x) : Frame p out s (x.indexSpan ax) := by
  unfold State.indexSpan; dsimp only; split <;> simp (maxDischargeDepth := 20) [h]

@[simp] theorem frame_stopReference {e : Entry} {c : StopCause} {b : Bool} (h : Frame p out s x) :
    Frame p out s (x.stopReference ax e c b) := by
  unfold State.stopReference
  dsimp only
  split
  · have h1 : Frame p out s ((x.setAxisState ax .stopping c).updAxis ax (fun a => { a with rampEnd := .stopped })) :=
      frame_updAxis (frame_setAxisState h) ⟨rfl, rfl, fun _ => ⟨rfl, rfl⟩, id, id⟩
    (repeat' split) <;> first | exact frame_finishHead (frame_beginStop h1) | exact frame_beginStop h1
  · exact frame_finishHead h

/-! ### Starts and gates -/

@[simp] theorem frame_planHead {a0 : Int} {e : Entry} {v : Nat} (h : Frame p out s x) :
    Frame p out s (x.planHead ax a0 e v) := by
  unfold State.planHead; simp [h]

@[simp] theorem frame_claimSecond {e : Entry} (h : Frame p out s x) : Frame p out s (x.claimSecond e) := by
  unfold State.claimSecond; split <;> simp [h]

@[simp] theorem frame_decideFly {a0 : Int} (h : Frame p out s x) : Frame p out s (x.decideFly ax a0) := by
  unfold State.decideFly
  dsimp only
  split
  · exact h
  · rename_i e rest hl
    split
    · rename_i hn n more hr
      refine frame_planHead (frame_updAxis (frame_claimSecond h) ⟨rfl, ?_, fun _ => ⟨rfl, rfl⟩, id, id⟩)
      have : ((x.claimSecond n).axis ax).list = (x.axis ax).list := by
        unfold State.claimSecond State.grantClaim; (repeat' split) <;> rfl
      simp [this, hl, cellsOf]
    · exact h
    · exact frame_updHead h (fun _ _ => rfl)

@[simp] theorem frame_decideIfDue {a0 : Int} (h : Frame p out s x) : Frame p out s (x.decideIfDue ax a0) := by
  unfold State.decideIfDue; split <;> simp (maxDischargeDepth := 20) [h]

@[simp] theorem frame_edgeDecelIfDue (h : Frame p out s x) : Frame p out s (x.edgeDecelIfDue ax) := by
  unfold State.edgeDecelIfDue
  split
  · exact frame_updAxis h ⟨rfl, rfl, fun _ => ⟨rfl, rfl⟩, id, fun _ k => by simp [Axis.moving] at k⟩
  · exact h

@[simp] theorem frame_planAndDecide {a0 : Int} {e : Entry} {v : Nat} (h : Frame p out s x) :
    Frame p out s (x.planAndDecide ax a0 e v) := by
  unfold State.planAndDecide; simp (maxDischargeDepth := 20) [h]

@[simp] theorem frame_replan {a0 : Int} (h : Frame p out s x) : Frame p out s (x.replan ax a0) := by
  unfold State.replan; dsimp only; (repeat' split) <;> simp (maxDischargeDepth := 20) [h]

@[simp] theorem frame_replanRequest (h : Frame p out s x) : Frame p out s (x.replanRequest ax) := by
  unfold State.replanRequest; dsimp only; (repeat' split) <;> simp (maxDischargeDepth := 20) [h]

@[simp] theorem frame_startMoving {v : Int} {d : Dir} (h : Frame p out s x) :
    Frame p out s (x.startMoving ax v d) := by
  unfold State.startMoving; dsimp only; (repeat' split) <;> simp (maxDischargeDepth := 20) [h]

@[simp] theorem frame_startMove {e : Entry} (h : Frame p out s x) : Frame p out s (x.startMove ax e) := by
  unfold State.startMove; dsimp only; (repeat' split) <;> simp (maxDischargeDepth := 20) [h]

@[simp] theorem frame_startJog {e : Entry} (h : Frame p out s x) : Frame p out s (x.startJog ax e) := by
  unfold State.startJog; dsimp only; (repeat' split) <;> simp (maxDischargeDepth := 20) [h]

@[simp] theorem frame_startOrder (h : Frame p out s x) : Frame p out s (x.startOrder ax) := by
  unfold State.startOrder
  split
  · exact h
  · rename_i e he
    dsimp only
    have hm : heldIn x out e.cell := heldIn_head he
    have h1 : ∀ e' : Entry, e'.cell = e.cell → Frame p out s
        (((x.writeCellState e.cell activeByte).updHead ax (fun _ => e')).setAxisState ax .running .none) := by
      intro e' hc
      refine frame_setAxisState (frame_updHead (frame_writeCellState h hm) ?_)
      intro e0 h0
      have : (x.writeCellState e.cell activeByte).head? ax = x.head? ax := rfl
      rw [this, he] at h0
      rw [hc]; exact congrArg Entry.cell (Option.some.inj h0)
    (repeat' split) <;> (first
      | apply frame_startMove | apply frame_startJog | apply frame_finishHead | apply frame_startReference
      | skip) <;> exact h1 _ rfl

@[simp] theorem frame_startDue (h : Frame p out s x) : Frame p out s (x.startDue ax) := by
  unfold State.startDue
  split
  · exact h
  · rename_i e he
    (repeat' split)
    · exact frame_startOrder h
    · exact frame_startOrder (frame_grantClaim h)
    · have hy : ∀ {o : List Nat} {u : State}, Frame p o u x → Frame p o u
          ((x.updHead ax (fun e => { e with status := .waiting, bound := false })).setAxisState ax .waiting .none) :=
        fun k => frame_setAxisState (frame_updHead k (fun _ _ => rfl))
      exact frame_waiting (frame_writeCellState (hy h) ((hy (Frame.refl p x)).heldIn (heldIn_head he)))

@[simp] theorem frame_settleGo {n : Nat} : ∀ {x : State}, Frame p out s x → Frame p out s (State.settleGo ax n x) := by
  induction n with
  | zero => exact fun h => h
  | succ n ih =>
      intro x h
      unfold State.settleGo
      split
      · exact ih (frame_startDue h)
      · exact h

@[simp] theorem frame_settle (h : Frame p out s x) : Frame p out s (x.settle ax) := frame_settleGo h

@[simp] theorem frame_startSuccessor {c : EndCode} (h : Frame p out s x) :
    Frame p out s (x.startSuccessor ax c) := by
  unfold State.startSuccessor; simp (maxDischargeDepth := 20) [h]

@[simp] theorem frame_release (h : Frame p out s x) : Frame p out s (x.release ax) := by
  unfold State.release
  dsimp only
  split <;> simp (maxDischargeDepth := 20) [h]

theorem frame_foldl {α : Type} {f : State → α → State} (hf : ∀ a {x : State}, Frame p out s x → Frame p out s (f x a)) :
    ∀ (l : List α) {x : State}, Frame p out s x → Frame p out s (l.foldl f x)
  | [], _, h => h
  | a :: l, _, h => frame_foldl hf l (hf a h)

@[simp] theorem frame_arbitrate {g : Fin 16} (h : Frame p out s x) : Frame p out s (x.arbitrate g) := by
  unfold State.arbitrate
  dsimp only
  apply frame_foldl (fun _ _ k => frame_settle k)
  have h1 := frame_foldl (f := fun s ax => State.release s ax) (fun _ _ k => frame_release k)
    (((x.waiting.filter (fun w => w.1 == g)).map (·.2)).filter (fun ax => x.waitsObserving ax)) h
  (repeat' split)
  · exact frame_release (frame_setGate h1)
  · exact h1
  · exact h1

@[simp] theorem frame_openGate {g : Fin 16} (h : Frame p out s x) : Frame p out s (x.openGate g) := by
  unfold State.openGate; split <;> simp (maxDischargeDepth := 20) [h]

/-! ### The sequencer -/

@[simp] theorem frame_holdStood {e : Entry} (h : Frame p out s x) : Frame p out s (x.holdStood ax e) := by
  unfold State.holdStood; split <;> simp (maxDischargeDepth := 20) [h]

@[simp] theorem frame_arrive (h : Frame p out s x) : Frame p out s (x.arrive ax) := by
  unfold State.arrive; dsimp only; (repeat' split) <;> simp (maxDischargeDepth := 20) [h]

@[simp] theorem frame_arriveIfDue (h : Frame p out s x) : Frame p out s (x.arriveIfDue ax) := by
  unfold State.arriveIfDue; split <;> simp (maxDischargeDepth := 20) [h]

@[simp] theorem frame_pendingIfDue (h : Frame p out s x) : Frame p out s (x.pendingIfDue ax) := by
  unfold State.pendingIfDue; dsimp only; (repeat' split) <;> simp (maxDischargeDepth := 20) [h]

@[simp] theorem frame_progress (h : Frame p out s x) : Frame p out s (x.progress ax) := by
  unfold State.progress; simp (maxDischargeDepth := 20) [h]

@[simp] theorem frame_rampToEnd {e : Entry} {c : StopCause} {k : EndCode} {r : Rates} (h : Frame p out s x) :
    Frame p out s (x.rampToEnd ax e c k r) := by
  unfold State.rampToEnd
  dsimp only
  have h1 : Frame p out s (x.updAxis ax (fun a => { a with state := .stopping, stopCause := c, rampEnd := k })) :=
    frame_updAxis h ⟨rfl, rfl, fun _ => ⟨rfl, rfl⟩, id, id⟩
  split
  · exact frame_finishHead (frame_beginStop h1)
  · exact frame_beginStop h1

@[simp] theorem frame_flushIf {b : Bool} (h : Frame p out s x) : Frame p out s (x.flushIf ax b) := by
  unfold State.flushIf; split <;> simp (maxDischargeDepth := 20) [h]

@[simp] theorem frame_endAtOnce {c : EndCode} {b : Bool} (h : Frame p out s x) :
    Frame p out s (x.endAtOnce ax c b) := by
  unfold State.endAtOnce; dsimp only; split <;> simp (maxDischargeDepth := 20) [h]

/-- A carried request stays within the frame. -/
def Carried.Framed (p : Keep) (out : List Nat) (s : State) : Carried → Prop
  | .done t => Frame p out s t
  | .refused _ _ => True

@[simp] theorem framed_done {t : State} : (Carried.done t).Framed p out s ↔ Frame p out s t := Iff.rfl
@[simp] theorem framed_refused {c : RefusalCode} {n : Nat} : (Carried.refused c n).Framed p out s := trivial
@[simp] theorem framed_notApplicable {n : Nat} : (Carried.notApplicable n).Framed p out s := trivial

theorem frame_stateOr {c : Carried} (hc : c.Framed p out s) (h : Frame p out s x) :
    Frame p out s (c.stateOr x) := by
  cases c
  · exact hc
  · exact h

theorem framed_stopAxis {b : Bool} (h : Frame p out s x) : (x.stopAxis ax b).Framed p out s := by
  unfold State.stopAxis; dsimp only; (repeat' split) <;> simp (maxDischargeDepth := 20) [h]

theorem framed_hold (h : Frame p out s x) : (x.hold ax).Framed p out s := by
  unfold State.hold; dsimp only; (repeat' split) <;> simp (maxDischargeDepth := 20) [h]

@[simp] theorem frame_resumeHeld {e : Entry} (h : Frame p out s x) : Frame p out s (x.resumeHeld ax e) := by
  unfold State.resumeHeld; dsimp only; (repeat' split) <;> simp (maxDischargeDepth := 20) [h]

theorem framed_resume (h : Frame p out s x) : (x.resume ax).Framed p out s := by
  unfold State.resume; dsimp only; (repeat' split) <;> simp (maxDischargeDepth := 20) [h]

@[simp] theorem frame_advanceRamp {e : Entry} (h : Frame p out s x) : Frame p out s (x.advanceRamp ax e) := by
  unfold State.advanceRamp; dsimp only; split <;> simp (maxDischargeDepth := 20) [h]

@[simp] theorem frame_advanceFly {e : Entry} {l : List Entry} (h : Frame p out s x) :
    Frame p out s (x.advanceFly ax e l) := by
  unfold State.advanceFly; dsimp only; (repeat' split) <;> simp (maxDischargeDepth := 20) [h]

theorem framed_advance (h : Frame p out s x) : (x.advance ax).Framed p out s := by
  unfold State.advance; dsimp only; (repeat' split) <;> simp (maxDischargeDepth := 20) [h]

@[simp] theorem frame_replanIfRunning (h : Frame p out s x) : Frame p out s (x.replanIfRunning ax) := by
  unfold State.replanIfRunning; split <;> simp (maxDischargeDepth := 20) [h]

@[simp] theorem frame_setOverride {n : Nat} (h : Frame p out s x) : Frame p out s (x.setOverride ax n) := by
  unfold State.setOverride; simp (maxDischargeDepth := 20) [h]

@[simp] theorem frame_newSpeed {n : Nat} (h : Frame p out s x) : Frame p out s (x.newSpeed ax n) := by
  unfold State.newSpeed; simp (maxDischargeDepth := 20) [h]

theorem framed_setPosition {c f : Word} (h : Frame ⟨false, b'⟩ out s x) : (x.setPosition ax c f).Framed ⟨false, b'⟩ out s := by
  unfold State.setPosition; split <;> simp (maxDischargeDepth := 20) [h]

@[simp] theorem frame_moduleStopAxis {c : StopCause} {b : Bool} (h : Frame p out s x) :
    Frame p out s (x.moduleStopAxis ax c b) := by
  unfold State.moduleStopAxis; dsimp only; (repeat' split) <;> simp (maxDischargeDepth := 20) [h]

@[simp] theorem frame_silenceContinue (h : Frame p out s x) : Frame p out s (x.silenceContinue ax) := by
  unfold State.silenceContinue; dsimp only; (repeat' split) <;> simp (maxDischargeDepth := 20) [h]

@[simp] theorem frame_silenceAxis (h : Frame p out s x) : Frame p out s (x.silenceAxis ax) := by
  unfold State.silenceAxis; (repeat' split) <;> simp (maxDischargeDepth := 20) [h]

/-! ### Watches -/

@[simp] theorem frame_updWatch {n : Nat} {f : Watch → Watch} (hf : ∀ w, w.cell = n → (f w).cell = n)
    (h : Frame p out s x) : Frame p out s (x.updWatch n f) := by
  have hm : (x.updWatch n f).watches.map (·.cell) = x.watches.map (·.cell) := by
    simp only [State.updWatch, List.map_map]
    apply List.map_congr_left
    intro w _
    simp only [Function.comp]
    split
    · rename_i hw
      have hw : w.cell = n := by simpa using hw
      rw [hf w hw, hw]
    · rfl
  refine h.trans { Frame.refl p x with cells := ?_, watches := ?_, table := fun _ => hm }
  · intro k
    simp only [State.cells, hm, List.count_nil, Nat.add_zero]
    rfl
  · rw [hm]

/-- The cells of a table without repeats less one of them. -/
theorem map_cell_filter (c : Nat) (l : List Watch) :
    (l.filter (fun x => x.cell != c)).map (·.cell) = (l.map (·.cell)).filter (fun n => n != c) := by
  rw [List.filter_map]; rfl

end Sys2Proof.Machine
end

