-- ==== Sys2Proof/Laws/FrameFinish.lean ====
section
/-!
SUPPORT. The frame of firings, checks and of all that follows an event (`State.finish`), and when nothing
follows.
-/

namespace Sys2Proof.Machine

variable {p : Keep} {q : Bool} {out : List Nat} {s x : State} {ax : AxisIx}

/-! ### Actions, ends of watches, firings -/

@[simp] theorem frame_perform {a : Action} (h : Frame p out s x) : Frame p out s (x.perform a) := by
  unfold State.perform
  split
  · exact frame_openGate h
  · exact frame_stateOr (framed_advance h) h
  · exact frame_stateOr (framed_hold h) h
  · exact frame_stateOr (framed_stopAxis h) h
  · exact frame_newSpeed h
  · exact frame_pulseTrigger h
  · exact h

/-- A frame that keeps the table is one that need not. -/
theorem Frame.weaken (h : Frame ⟨q, true⟩ out s x) : Frame ⟨q, false⟩ out s x :=
  { h with table := fun k => by cases k }

theorem frame_endWatch {w : Watch} {c : EndCode} (h : Frame ⟨q, false⟩ out s x)
    (hn : (x.watches.map (·.cell)).Nodup) (hw : w.cell ∈ x.watches.map (·.cell)) :
    Frame ⟨q, false⟩ out s (x.endWatch w c) := by
  unfold State.endWatch
  apply frame_endCell
  refine { h with cells := ?_, watches := ?_, table := fun k => by cases k }
  · intro n
    have hc := h.cells n
    rw [count_cells] at hc ⊢
    simp only [map_cell_filter]
    have ha : ∀ j, ({ x with watches := x.watches.filter (fun y => y.cell != w.cell) } : State).axis j = x.axis j :=
      fun _ => rfl
    simp only [ha]
    have h1 := List.count_eq_one_of_mem hn hw
    by_cases k : n = w.cell
    · subst k
      rw [List.count_eq_zero_of_not_mem (by simp : w.cell ∉ (x.watches.map (·.cell)).filter (fun n => n != w.cell))]
      rw [h1] at hc
      simp only [List.count_cons_self]
      omega
    · rw [List.count_filter (by simpa using k), List.count_cons_of_ne (Ne.symm k)]
      exact hc
  · exact (List.Sublist.map _ (List.filter_sublist)).trans h.watches

theorem frame_cancelAll_aux : ∀ {l : List Watch} {x : State}, Frame ⟨q, false⟩ out s x →
    x.watches = l → (l.map (·.cell)).Nodup →
    Frame ⟨q, false⟩ out s (l.foldl (fun s w => s.endWatch w .cancelled) x)
  | [], _, h, _, _ => h
  | w :: l, x, h, hl, hn => by
      rw [List.foldl_cons]
      have hw : (x.endWatch w .cancelled).watches = l := by
        have : (x.endWatch w .cancelled).watches = x.watches.filter (fun y => y.cell != w.cell) := by
          unfold State.endWatch State.endCell State.linkCell
          simp only
          (repeat' split) <;> rfl
        rw [this, hl, List.filter_cons]
        simp only [List.map_cons, List.nodup_cons, List.mem_map, not_exists, not_and] at hn
        simp only [bne_self_eq_false, Bool.false_eq_true, if_false]
        rw [List.filter_eq_self]
        intro y hy
        simpa using fun e => hn.1 y hy e
      refine frame_cancelAll_aux (frame_endWatch h (by rw [hl]; exact hn) (by rw [hl]; simp)) hw ?_
      exact (List.nodup_cons.1 hn).2

theorem frame_cancelAll (h : Frame ⟨q, false⟩ out s x) (hn : (x.watches.map (·.cell)).Nodup) :
    Frame ⟨q, false⟩ out s x.cancelAll := frame_cancelAll_aux h rfl hn

/-- The cell of a watch is held. -/
theorem heldIn_watch {n : Nat} (h : n ∈ x.watches.map (·.cell)) : heldIn x out n := by
  have := List.count_pos_iff.2 (List.mem_append_left x.chain (List.mem_append_right
    (allAxes.flatMap (fun ax => (x.axis ax).list.map (·.cell))) h))
  unfold heldIn State.cells
  omega

theorem frame_fire {w : Watch} (h : Frame ⟨q, false⟩ out s x) (hn : (x.watches.map (·.cell)).Nodup)
    (hw : w.cell ∈ x.watches.map (·.cell)) : Frame ⟨q, false⟩ out s (x.fire w) := by
  unfold State.fire
  dsimp only
  have hc : (x.fired w).cell = w.cell := rfl
  have h1 : Frame ⟨q, true⟩ [] x ((x.updWatch w.cell (fun _ => x.fired w)).writeResult w.cell ((x.fired w).result 0)) :=
    frame_writeResult (frame_updWatch (fun _ _ => hc) (Frame.refl _ x))
      ((frame_updWatch (fun _ _ => hc) (Frame.refl ⟨q, true⟩ x)).heldIn (heldIn_watch hw))
  have h2 : Frame ⟨q, true⟩ [] x (if x.actionApplies w.action = true then
      ((x.updWatch w.cell (fun _ => x.fired w)).writeResult w.cell ((x.fired w).result 0)).perform w.action
      else (x.updWatch w.cell (fun _ => x.fired w)).writeResult w.cell ((x.fired w).result 0)) := by
    split
    · exact frame_perform h1
    · exact h1
  have ht := h2.table rfl
  split
  · exact frame_endWatch (h.trans h2.weaken) (by rw [ht]; exact hn) (by rw [ht]; exact hw)
  · refine frame_updWatch ?_ (h.trans h2.weaken)
    intro v hv
    unfold Watch.restart
    split <;> exact hv

theorem mem_of_watchOf {c : Nat} {w : Watch} (h : x.watchOf c = some w) : w.cell ∈ x.watches.map (·.cell) :=
  List.mem_map_of_mem (List.mem_of_find?_eq_some h)

theorem cell_of_watchOf {c : Nat} {w : Watch} (h : x.watchOf c = some w) : w.cell = c := by
  simpa using List.find?_some h

theorem frame_evaluate {c : Nat} {v : Sample} (h : Frame ⟨q, false⟩ out s x)
    (hn : (x.watches.map (·.cell)).Nodup) : Frame ⟨q, false⟩ out s (x.evaluate c v) := by
  unfold State.evaluate
  split
  · exact h
  · rename_i w hw
    split
    · exact frame_fire h hn (mem_of_watchOf hw)
    · exact frame_updWatch (fun _ hv => hv) h
    · exact h
    · exact h

/-! ### Checks -/

@[simp] theorem frame_reportCond {c : Cond} (h : Frame p out s x) : Frame p out s (x.reportCond ax c) := by
  unfold State.reportCond
  split
  · split
    · exact frame_seekBackFail h
    · exact frame_limitFault h
  · exact frame_notReadyFault h
  · exact frame_axisFault h
  · exact frame_axisFault h

@[simp] theorem frame_checkCond {c : Cond} (h : Frame p out s x) : Frame p out s (x.checkCond ax c) := by
  unfold State.checkCond
  dsimp only
  have h1 : Frame p out s (x.updAxis ax (fun a => { a with seen := a.seen.put c (x.condHolds ax c) })) :=
    frame_updAxis h ⟨rfl, rfl, fun _ => ⟨rfl, rfl⟩, id, id⟩
  split
  · exact frame_reportCond h1
  · exact h1

/-! ### What follows an event -/

/-- One reported change taken; only an assignment of positions moves a position. -/
theorem frame_runJob {j : Job} (h : Frame ⟨q, false⟩ out s x) (hn : (x.watches.map (·.cell)).Nodup)
    (hj : q = true → ∀ ax, j ≠ .assign ax) : Frame ⟨q, false⟩ out s (x.runJob j) := by
  unfold State.runJob
  split
  · exact frame_evaluate h hn
  · exact frame_progress h
  · exact frame_checkCond h
  · rename_i ax
    cases q
    · exact frame_settle (frame_assignReference h)
    · exact absurd rfl (hj rfl ax)

theorem frame_drain : ∀ {n : Nat} {picks : List Nat} {x : State}, Frame ⟨q, false⟩ out s x →
    (x.watches.map (·.cell)).Nodup → (q = true → ∀ ax, Job.assign ax ∉ x.agenda) →
    Frame ⟨q, false⟩ out s (State.drain n picks x)
  | 0, _, _, h, _, _ => h
  | n + 1, picks, x, h, hn, hj => by
      unfold State.drain
      dsimp only
      split
      · exact h
      · rename_i j hg
        have hm : j ∈ x.agenda := List.mem_of_getElem? hg
        have he : ∀ ax, Job.assign ax ∈ x.agenda.eraseIdx (pickJob (picks.headD 0) x.agenda) →
            Job.assign ax ∈ x.agenda := fun ax k => List.mem_of_mem_eraseIdx k
        have hr : Frame ⟨q, false⟩ [] x
            (({ x with agenda := x.agenda.eraseIdx (pickJob (picks.headD 0) x.agenda) } : State).runJob j) :=
          frame_runJob (frame_agenda (Frame.refl _ x) (fun _ => he)) hn (fun k ax e => hj k ax (e ▸ hm))
        exact frame_drain (h.trans hr) (hr.watches.nodup hn) (fun k ax e => hj k ax (hr.assigns k ax e))

/-- No position assignment is due, and none waits. -/
def State.noAssigns (s : State) : Prop :=
  (∀ ax, Job.assign ax ∉ s.agenda) ∧ ∀ ax, (s.axis ax).ref.assignDue = false

theorem assignsDue_of_noAssigns {l : List AxisIx} (h : x.noAssigns) : x.assignsDue l = x := by
  have : allAxes.filter (fun ax => l.contains ax && (x.axis ax).ref.assignDue) = [] := by
    rw [List.filter_eq_nil_iff]; intro ax _; simp [h.2 ax]
  unfold State.assignsDue
  rw [this]
  simp [State.addJobs]

/-- All that follows an event but the passage from STOPPING to STOPPED. -/
def State.followUp (s : State) (r : Race) : State := (s.assignsDue r.settle).drain Config.agendaBound r.picks

theorem finish_eq (r : Race) : x.finish r = (x.followUp r).stopIfAtRest := rfl

theorem frame_followUp {r : Race} (h : Frame ⟨false, false⟩ out s x) (hn : (x.watches.map (·.cell)).Nodup) :
    Frame ⟨false, false⟩ out s (x.followUp r) := by
  have ha : Frame ⟨false, false⟩ out s (x.assignsDue r.settle) := frame_addJobs h (fun k => by cases k)
  exact frame_drain ha hn (fun k => by cases k)

/-- Where no assignment is due, no position changes in what follows an event. -/
theorem frame_followUp_pos {r : Race} (h : Frame ⟨true, false⟩ out s x) (hn : (x.watches.map (·.cell)).Nodup)
    (ha : x.noAssigns) : Frame ⟨true, false⟩ out s (x.followUp r) := by
  unfold State.followUp
  rw [assignsDue_of_noAssigns ha]
  exact frame_drain h hn (fun _ => ha.1)

/-- Where nothing waits to be taken, only the passage from STOPPING to STOPPED can follow an event. -/
theorem finish_of_calm {r : Race} (h : x.calm = true) : x.finish r = x.stopIfAtRest := by
  simp only [State.calm, Bool.and_eq_true, List.isEmpty_iff, List.all_eq_true, Bool.not_eq_true'] at h
  obtain ⟨h1, h2⟩ := h
  have hn : x.noAssigns := ⟨fun ax => by simp [h1], fun ax => h2 ax (by fin_cases ax <;> simp [allAxes])⟩
  have hd : State.drain Config.agendaBound r.picks x = x := by
    show State.drain (4095 + 1) r.picks x = x
    unfold State.drain
    simp [h1]
  unfold State.finish
  rw [assignsDue_of_noAssigns hn, hd]

/-- Nothing follows an event that leaves nothing to be taken. -/
theorem finish_of_settled {r : Race} (h : x.settled = true) : x.finish r = x := by
  simp only [State.settled, Bool.and_eq_true, Bool.not_eq_true', Bool.and_eq_false_iff, beq_eq_false_iff_ne] at h
  rw [finish_of_calm h.1]
  unfold State.stopIfAtRest
  rcases h.2 with h | h <;> simp [h]

/-- A quiet state is settled. -/
theorem settled_of_quiet (h : x.quiet = true) : x.settled = true := by
  simp only [State.quiet, Bool.and_eq_true, bne_iff_ne, ne_eq] at h
  simp [State.settled, h.1, h.2]

/-- Nothing follows an event outside STOPPING that leaves nothing to be taken. -/
theorem finish_of_quiet {r : Race} (h : x.quiet = true) : x.finish r = x := finish_of_settled (settled_of_quiet h)

end Sys2Proof.Machine
end

