-- ==== Sys2Proof/Laws/Collects.lean ====
section
/-!
SUPPORT. What closes an event (`State.close`): the COLLECT reads between its linkings, when there are none, and
what they keep.
-/

namespace Sys2Proof.Machine

variable {s t : State} {r : Race}

/-! ### When no read falls inside -/

/-- With no read there is none. -/
@[simp] theorem collectsInside_nil (lo : Nat) : s.collectsInside lo [] = s := rfl

/-- Where fewer than two cells were linked there is no place between two linkings. -/
theorem collectsInside_of_short {lo : Nat} (h : s.chain.length ≤ lo) :
    ∀ ns : List Nat, s.collectsInside lo ns = s
  | [] => rfl
  | n :: ns => by
      unfold State.collectsInside
      rw [if_neg (by simp only [Bool.and_eq_true, decide_eq_true_eq]; omega)]
      exact collectsInside_of_short h ns

/-- Without a read inside, an event is closed by what follows it. -/
theorem close_of_uncollected (h : r.collects = []) : s.close r t = t.finish r := by
  unfold State.close
  rw [h]
  rfl

/-- An event that links at most one cell is closed by what follows it. -/
theorem close_of_short (h : (t.finish r).chain.length ≤ s.chain.length + 1) : s.close r t = t.finish r :=
  collectsInside_of_short h _

/-- Nothing follows, and no read falls inside, an event that leaves nothing to be taken and links at most one
cell. -/
theorem close_of_settled (h : t.settled = true) (hc : t.chain.length ≤ s.chain.length + 1) :
    s.close r t = t := by
  have hf : t.finish r = t := finish_of_settled h
  rw [close_of_short (by rw [hf]; exact hc), hf]

/-- The same outside STOPPING. -/
theorem close_of_quiet (h : t.quiet = true) (hc : t.chain.length ≤ s.chain.length + 1) : s.close r t = t :=
  close_of_settled (settled_of_quiet h) hc

/-! ### What a read inside does -/

/-- The end of the detached chain is written into memory and nowhere else. -/
theorem endLinkAt_fixed (n : Nat) : s.endLinkAt n = { s with mem := (s.endLinkAt n).mem } := by
  unfold State.endLinkAt
  split <;> rfl

/-- A COLLECT read between two linkings touches memory, the held marks, the chain, the word returned and the
supervision timer, and nothing else (R154). -/
theorem detach_fixed (n : Nat) : (s.endLinkAt n).detach n =
    { s with
      mem := (s.endLinkAt n).mem
      collectWord := halves ((s.chain.take n).headD noIndex) (s.chain.take n).length
      held := s.held.filter (fun c => !(s.chain.take n).contains c)
      chain := s.chain.drop n
      supTimer := if s.modState = .running then (if s.supInterval = 0 then none else some s.supInterval)
        else s.supTimer } := by
  rw [endLinkAt_fixed]
  unfold State.detach State.activity State.loadSupervision
  dsimp only
  split <;> rfl

/-- What each read keeps, all of them keep. -/
theorem collectsInside_induct (P : State → Prop)
    (h : ∀ (s : State) (n : Nat), P s → n < s.chain.length → P ((s.endLinkAt n).detach n)) :
    ∀ (ns : List Nat) (lo : Nat) (s : State), P s → P (s.collectsInside lo ns)
  | [], _, _, hs => hs
  | n :: ns, lo, s, hs => by
      unfold State.collectsInside
      split
      · rename_i hn
        simp only [Bool.and_eq_true, decide_eq_true_eq] at hn
        exact collectsInside_induct P h ns 0 _ (h s n hs hn.2)
      · exact collectsInside_induct P h ns lo s hs

/-- What a close keeps: what follows an event keeps it, and so does each read. -/
theorem close_induct (P : State → Prop) (ht : P (t.finish r))
    (h : ∀ (s : State) (n : Nat), P s → n < s.chain.length → P ((s.endLinkAt n).detach n)) : P (s.close r t) :=
  collectsInside_induct P h _ _ _ ht

/-- What stands outside memory, marks, chain, returned word and supervision timer is what follows the event. -/
theorem close_fixed : s.close r t = { t.finish r with
    mem := (s.close r t).mem, collectWord := (s.close r t).collectWord, held := (s.close r t).held,
    chain := (s.close r t).chain, supTimer := (s.close r t).supTimer } := by
  refine close_induct (fun x => x = { t.finish r with
    mem := x.mem, collectWord := x.collectWord, held := x.held, chain := x.chain, supTimer := x.supTimer }) rfl ?_
  intro x n hx _
  rw [detach_fixed]
  generalize hm : (x.endLinkAt n).mem = m
  rw [hx]

/-- The canonical form of memory is kept. -/
theorem memoryWf_detach {n : Nat} (h : s.memoryWf = true) : ((s.endLinkAt n).detach n).memoryWf = true := by
  rw [detach_fixed]
  show (s.endLinkAt n).memoryWf = true
  unfold State.endLinkAt
  split
  · exact memoryWf_writeByte (memoryWf_writeByte h)
  · exact h

theorem memoryWf_close (h : (t.finish r).memoryWf = true) : (s.close r t).memoryWf = true :=
  close_induct (fun x => x.memoryWf = true) h (fun _ _ hx _ => memoryWf_detach hx)

/-- The bytes that a read inside changes are those of the return link of a cell of the chain. -/
theorem readByte_detach {n a : Nat} (h : ((s.endLinkAt n).detach n).readByte a ≠ s.readByte a) :
    ∃ c ∈ s.chain, inModulePart c a := by
  rw [detach_fixed] at h
  replace h : (s.endLinkAt n).readByte a ≠ s.readByte a := h
  unfold State.endLinkAt at h
  split at h
  · rename_i c hc
    refine ⟨c, List.mem_of_mem_take (List.mem_of_getLast? hc), Or.inr (Or.inl ?_)⟩
    unfold State.writeReturnLink State.writeHalf at h
    by_cases h1 : a = cellBase c + 6 + 1
    · unfold cellBase at h1; omega
    · rw [readByte_writeByte_other h1] at h
      by_cases h2 : a = cellBase c + 6
      · unfold cellBase at h2; omega
      · exact absurd (readByte_writeByte_other h2) h
  · exact absurd rfl h

/-- The cells of a state without the first of its chain. -/
theorem count_cells_detach (n k : Nat) :
    ((s.endLinkAt n).detach n).cells.count k + (s.chain.take n).count k = s.cells.count k := by
  rw [detach_fixed, count_cells, count_cells]
  have h : s.chain.count k = (s.chain.take n).count k + (s.chain.drop n).count k := by
    rw [← List.count_append, List.take_append_drop]
  simp only [State.axis] at *
  omega

/-- Every held cell stays in one place (R4, R5, R154). -/
theorem onePlace_detach {n : Nat} (h : s.onePlace) : ((s.endLinkAt n).detach n).onePlace := by
  obtain ⟨h1, h2, h3⟩ := h
  have hc := fun k => count_cells_detach (s := s) n k
  have hh : ((s.endLinkAt n).detach n).held = s.held.filter (fun c => !(s.chain.take n).contains c) := by
    rw [detach_fixed]
  have hone : ∀ k, s.cells.count k ≤ 1 := fun k => List.nodup_iff_count_le_one.1 h1 k
  refine ⟨List.nodup_iff_count_le_one.2 (fun k => by have := hc k; have := hone k; omega), ?_, ?_⟩
  · intro k hk
    have hp := List.count_pos_iff.2 hk
    have e := hc k
    have o := hone k
    have hz : (s.chain.take n).count k = 0 := by omega
    rw [hh]
    simp only [List.mem_filter, Bool.not_eq_true', List.contains_eq_mem, decide_eq_false_iff_not]
    exact ⟨h2 k (List.count_pos_iff.1 (by omega)), List.count_eq_zero.1 hz⟩
  · intro k hk
    rw [hh] at hk
    simp only [List.mem_filter, Bool.not_eq_true', List.contains_eq_mem, decide_eq_false_iff_not] at hk
    have hp := List.count_pos_iff.2 (h3 k hk.1)
    have hz := List.count_eq_zero.2 hk.2
    have e := hc k
    exact List.count_pos_iff.1 (by omega)

theorem onePlace_close (h : (t.finish r).onePlace) : (s.close r t).onePlace :=
  close_induct State.onePlace h (fun _ _ hx _ => onePlace_detach hx)

end Sys2Proof.Machine
end

