-- ==== Sys2Proof/Laws/Drain.lean ====
section
/-!
SUPPORT. What the taking of reported changes keeps, and when it takes them all; the orders that picks give.
-/

namespace Sys2Proof.Machine

/-- With nothing on the agenda, nothing is taken. -/
theorem drain_of_empty {s : State} (h : s.agenda = []) : ∀ (n : Nat) (picks : List Nat), s.drain n picks = s
  | 0, _ => rfl
  | n + 1, picks => by
      unfold State.drain
      simp [h]

/-- What every job keeps, the taking of jobs keeps. -/
theorem drain_induct (P : State → Prop)
    (h : ∀ (s : State) (i : Nat) (j : Job), P s → s.agenda[i]? = some j →
      P ({ s with agenda := s.agenda.eraseIdx i }.runJob j)) :
    ∀ (n : Nat) (picks : List Nat) (s : State), P s → P (s.drain n picks)
  | 0, _, _, hs => hs
  | n + 1, picks, s, hs => by
      unfold State.drain
      simp only
      split
      · exact hs
      · rename_i j hj
        exact drain_induct P h n picks.tail _ (h s _ j hs hj)

/-- The report taken for one is that one or stands before it. -/
theorem earliest_le (js : List Job) : ∀ n i : Nat, earliest js n i ≤ i
  | 0, i => Nat.le_refl i
  | n + 1, i => by
      unfold earliest
      split
      · exact Nat.le_refl i
      · dsimp only
        split
        · rename_i h
          exact Nat.le_trans (earliest_le js n _) (Nat.le_of_lt h)
        · exact Nat.le_refl i

/-- A pick on a list that is not empty names a place of it. -/
theorem pickJob_lt (pick : Nat) {js : List Job} (h : js ≠ []) : pickJob pick js < js.length :=
  Nat.lt_of_le_of_lt (earliest_le js _ _) (Nat.mod_lt _ (List.length_pos_of_ne_nil h))

/-- No report that must keep its order stands before the one taken (R117, R118). -/
theorem earliest_first (js : List Job) : ∀ n i : Nat, i ≤ n → ∀ j, js[earliest js n i]? = some j →
    ∀ k ∈ js.take (earliest js n i), k.keepsOrder j = false
  | 0, i, h, j, _, k, hk => by
      have : i = 0 := by omega
      subst this
      simp [earliest] at hk
  | n + 1, i, h, j, hj, k, hk => by
      unfold earliest at hj hk
      split at hj
      · rename_i hn
        rw [hn] at hj
        cases hj
      · rename_i j' hj'
        rw [hj'] at hk
        dsimp only at hj hk
        split at hj
        · rename_i hlt
          rw [if_pos hlt] at hk
          exact earliest_first js n _ (by omega) j hj k hk
        · rename_i hlt
          rw [if_neg hlt] at hk
          rw [hj'] at hj
          cases hj
          have hi : i < js.length := by
            by_contra hc
            rw [List.getElem?_eq_none (by omega)] at hj'
            cases hj'
          have hlen : (js.take i).length = i := by rw [List.length_take]; omega
          obtain ⟨m, hm, rfl⟩ := List.mem_iff_getElem.1 hk
          have := List.not_of_lt_findIdx (p := fun x => x.keepsOrder j) (xs := js.take i) (i := m) (by omega)
          simpa using this

/-- Jobs that put nothing on the agenda are all taken, whatever the picks, where there are no more of them than
may be taken; what they keep holds afterwards. -/
theorem drain_all (P : State → Prop) (good : Job → Prop)
    (hA : ∀ (s : State) (l : List Job), P s → P { s with agenda := l })
    (hJ : ∀ (s : State) (j : Job), P s → good j → P (s.runJob j) ∧ (s.runJob j).agenda = s.agenda) :
    ∀ (n : Nat) (picks : List Nat) (s : State), P s → (∀ j ∈ s.agenda, good j) → s.agenda.length ≤ n →
      P (s.drain n picks) ∧ (s.drain n picks).agenda = []
  | 0, _, s, hs, _, hn => ⟨hs, List.eq_nil_of_length_eq_zero (Nat.le_zero.mp hn)⟩
  | n + 1, picks, s, hs, hg, hn => by
      by_cases he : s.agenda = []
      · rw [drain_of_empty he]
        exact ⟨hs, he⟩
      have hlt := pickJob_lt (picks.headD 0) he
      obtain ⟨j, hj⟩ : ∃ j, s.agenda[pickJob (picks.headD 0) s.agenda]? = some j :=
        ⟨_, List.getElem?_eq_getElem hlt⟩
      have hgj : good j := hg j (List.mem_of_getElem? hj)
      obtain ⟨h1, h2⟩ := hJ _ j (hA s (s.agenda.eraseIdx (pickJob (picks.headD 0) s.agenda)) hs) hgj
      unfold State.drain
      simp only [hj]
      refine drain_all P good hA hJ n picks.tail _ h1 ?_ ?_
      · intro k hk
        rw [h2] at hk
        exact hg k (List.mem_of_mem_eraseIdx hk)
      · rw [h2]
        simp only [List.length_eraseIdx_of_lt hlt]
        omega

theorem pickOrderGo_perm {α : Type} : ∀ (n : Nat) (picks : List Nat) (l : List α), l.length = n →
    (pickOrderGo n picks l).Perm l
  | 0, _, l, h => by
      rw [List.eq_nil_of_length_eq_zero h]
      exact .nil
  | n + 1, picks, l, h => by
      have hlt : picks.headD 0 % l.length < l.length := Nat.mod_lt _ (by omega)
      unfold pickOrderGo
      simp only [List.getElem?_eq_getElem hlt]
      have ih := pickOrderGo_perm n picks.tail (l.eraseIdx (picks.headD 0 % l.length))
        (by rw [List.length_eraseIdx_of_lt hlt]; omega)
      exact (ih.cons _).trans (List.getElem_cons_eraseIdx_perm hlt)

/-- The order that picks give of a list is an order of all of it. -/
theorem pickOrder_perm {α : Type} (picks : List Nat) (l : List α) : (pickOrder picks l).Perm l :=
  pickOrderGo_perm _ _ _ rfl

end Sys2Proof.Machine
end

