-- ==== Sys2Proof/Laws/PerInstr.lean ====
section
/-!
SUPPORT. One lemma for each command: the opcode table gives no row a bit, so no word spells it (log 27).
-/

namespace Sys2Proof.Laws.Spelling

/-- No word spells the command. -/
def Statement (i : Instr) : Prop := ∀ nbits w : Nat, decodeTableWord nbits w ≠ some i

theorem powerOn : Statement .powerOn := fun _ _ h => by cases h
theorem rackResetLine : Statement .rackResetLine := fun _ _ h => by cases h
theorem selfTestPass : Statement .selfTestPass := fun _ _ h => by cases h
theorem selfTestFail : Statement .selfTestFail := fun _ _ h => by cases h
theorem postWrite (value : Word) : Statement (.postWrite value) := fun _ _ h => by cases h
theorem collect : Statement .collect := fun _ _ h => by cases h
theorem start (arg : Byte) : Statement (.start arg) := fun _ _ h => by cases h
theorem stop (arg : Byte) (race : Race) : Statement (.stop arg race) := fun _ _ h => by cases h
theorem reset (arg : Byte) (written : Nat) : Statement (.reset arg written) := fun _ _ h => by cases h
theorem ack (causes : Byte) : Statement (.ack causes) := fun _ _ h => by cases h
theorem kick (arg : Byte) : Statement (.kick arg) := fun _ _ h => by cases h
theorem unknownCommand (code arg : Byte) : Statement (.unknownCommand code arg) := fun _ _ h => by cases h
theorem ignoredRegisterWrite (offset : Nat) (value : Word) : Statement (.ignoredRegisterWrite offset value) :=
  fun _ _ h => by cases h
theorem setupCheckPass (race : Race) : Statement (.setupCheckPass race) := fun _ _ h => by cases h
theorem setupCheckFail : Statement .setupCheckFail := fun _ _ h => by cases h
theorem walkBegin : Statement .walkBegin := fun _ _ h => by cases h
theorem cellVisit (race : Race) : Statement (.cellVisit race) := fun _ _ h => by cases h
theorem outputPulse (axis : AxisIx) (race : Race) : Statement (.outputPulse axis race) := fun _ _ h => by cases h
theorem moduleStopComplete : Statement .moduleStopComplete := fun _ _ h => by cases h
theorem encoderEdge (axis : AxisIx) (a b : Bool) (race : Race) : Statement (.encoderEdge axis a b race) :=
  fun _ _ h => by cases h
theorem limitInputChange (axis : AxisIx) (side : LimitSide) (level : Bool) (race : Race) : Statement (.limitInputChange axis side level race) :=
  fun _ _ h => by cases h
theorem referenceSwitchChange (axis : AxisIx) (level : Bool) (race : Race) : Statement (.referenceSwitchChange axis level race) :=
  fun _ _ h => by cases h
theorem indexInputChange (axis : AxisIx) (level : Bool) (race : Race) : Statement (.indexInputChange axis level race) :=
  fun _ _ h => by cases h
theorem driveReadyChange (axis : AxisIx) (level : Bool) (race : Race) : Statement (.driveReadyChange axis level race) :=
  fun _ _ h => by cases h
theorem driveAlarmChange (axis : AxisIx) (level : Bool) (race : Race) : Statement (.driveAlarmChange axis level race) :=
  fun _ _ h => by cases h
theorem eventInputChange (input : Fin 4) (level : Bool) (race : Race) : Statement (.eventInputChange input level race) :=
  fun _ _ h => by cases h
theorem moduleClockTick (race : Race) : Statement (.moduleClockTick race) := fun _ _ h => by cases h
theorem imageRefresh : Statement .imageRefresh := fun _ _ h => by cases h
theorem elapsedReached (cell : Nat) (race : Race) : Statement (.elapsedReached cell race) :=
  fun _ _ h => by cases h
theorem deadlineExpiry (axis : AxisIx) (race : Race) : Statement (.deadlineExpiry axis race) :=
  fun _ _ h => by cases h
theorem dwellEnd (axis : AxisIx) (race : Race) : Statement (.dwellEnd axis race) := fun _ _ h => by cases h
theorem pauseExpiry (axis : AxisIx) (race : Race) : Statement (.pauseExpiry axis race) := fun _ _ h => by cases h
theorem clearPulseExpiry (axis : AxisIx) (race : Race) : Statement (.clearPulseExpiry axis race) :=
  fun _ _ h => by cases h
theorem triggerPulseExpiry (output : Fin 4) : Statement (.triggerPulseExpiry output) := fun _ _ h => by cases h
theorem supervisionExpiry (race : Race) : Statement (.supervisionExpiry race) := fun _ _ h => by cases h

end Sys2Proof.Laws.Spelling
end

