-- ==== Sys2Proof/Laws/Ramp.lean ====
section
/-!
SUPPORT. Squared speeds and their roots: what a proof about a speed needs of `sqOf`, `isqrt` and `shownSpeed`.
-/

namespace Sys2Proof.Machine

/-- Squares of whole speeds are ordered as the speeds are. -/
@[simp] theorem sqOf_le_sqOf {a b : Nat} : sqOf a ≤ sqOf b ↔ a ≤ b := by
  unfold sqOf nano
  rw [Nat.pow_le_pow_iff_left (by decide)]
  omega

/-- The strict order likewise. -/
@[simp] theorem sqOf_lt_sqOf {a b : Nat} : sqOf a < sqOf b ↔ a < b := by
  rw [← Nat.not_le, sqOf_le_sqOf, Nat.not_le]

/-- Different speeds have different squares. -/
@[simp] theorem sqOf_inj {a b : Nat} : sqOf a = sqOf b ↔ a = b := by
  simp only [Nat.le_antisymm_iff, sqOf_le_sqOf]

/-- At rest. -/
@[simp] theorem sqOf_zero : sqOf 0 = 0 := rfl

/-- The search for a root keeps it between `r` and `r + 2^k`. -/
theorem isqrtGo_spec {n : Nat} : ∀ {k r : Nat}, r ^ 2 ≤ n → n < (r + 2 ^ k) ^ 2 →
    isqrtGo n k r ^ 2 ≤ n ∧ n < (isqrtGo n k r + 1) ^ 2
  | 0, _, hl, hu => ⟨hl, hu⟩
  | k + 1, r, hl, hu => by
      unfold isqrtGo
      split
      · exact isqrtGo_spec ‹_› (by rwa [Nat.add_assoc, ← Nat.two_mul, ← Nat.pow_succ'])
      · exact isqrtGo_spec hl (Nat.lt_of_not_le ‹_›)

/-- The whole part of a root below 2^102 of a square is the root. -/
theorem isqrt_sq {v : Nat} (h : v < 2 ^ 102) : isqrt (v ^ 2) = v := by
  obtain ⟨hl, hu⟩ := isqrtGo_spec (n := v ^ 2) (k := 102) (r := 0) (Nat.zero_le _)
    (by rw [Nat.zero_add]; exact Nat.pow_lt_pow_left h (by decide))
  have hl := (Nat.pow_le_pow_iff_left (by decide)).1 hl
  have hu := (Nat.pow_lt_pow_iff_left (by decide)).1 hu
  unfold isqrt
  omega

/-- A whole speed is shown as it is (R92). -/
theorem shownSpeed_sqOf {v : Nat} (h : v < 2 ^ 72) : shownSpeed (sqOf v) = v := by
  have hv : isqrt (sqOf v) / nano = v := by
    unfold sqOf
    rw [isqrt_sq (by unfold nano; omega)]
    exact Nat.mul_div_cancel v (by decide)
  simp [shownSpeed, hv]

end Sys2Proof.Machine
end

