-- ==== Sys2Proof/Laws/Reset.lean ====
section
/-!
SUPPORT. What a reset and the POWER_UP sequence do to exchange memory, said once (R177, R186).
-/

namespace Sys2Proof.Machine

/-- Zeroing an extent keeps the canonical form. -/
theorem memWf_clear {m : List Host.Cell} (h : memWf m = true) : ∀ x : Extent, memWf (x.clear m) = true
  | .whole => rfl
  | .images => by
      simp only [Extent.clear, zeroImages, List.foldl]
      repeat' first | exact h | apply memWf_memZero

/-- An extent zeroed reads 0. -/
theorem memGet_clear_covered {m : List Host.Cell} {a : Nat} : ∀ {x : Extent}, x.covers a →
    memGet (x.clear m) a = unlistedByte
  | .whole, _ => rfl
  | .images, h => by
      simp only [Extent.covers, clearedByReset] at h
      simp only [Extent.clear, zeroImages, List.foldl, memGet_memZero]
      (repeat' split) <;> first | rfl | omega

/-- Outside the extent every byte is as before. -/
theorem memGet_clear_other {m : List Host.Cell} {a : Nat} : ∀ {x : Extent}, ¬ x.covers a →
    memGet (x.clear m) a = memGet m a
  | .whole, h => absurd trivial h
  | .images, h => by
      simp only [Extent.covers, clearedByReset] at h
      simp only [Extent.clear, zeroImages, List.foldl, memGet_memZero]
      (repeat' split) <;> first | rfl | omega

/-- Steps 2 and 3 of the POWER_UP sequence keep the canonical form. -/
theorem memoryWf_prepareMemory {s : State} (h : s.memoryWf = true) : s.prepareMemory.memoryWf = true := by
  unfold State.prepareMemory
  split
  · next x _ => exact memoryWf_writeWord (memoryWf_writeWord (memWf_clear h x))
  · exact h

/-- Nothing but memory and what is yet to be zeroed changes. -/
theorem prepareMemory_fields (s : State) :
    s.prepareMemory = { s with mem := s.prepareMemory.mem, toClear := none } := by
  unfold State.prepareMemory
  split
  · rfl
  · next h => rw [← h]

/-- What steps 2 and 3 of the POWER_UP sequence leave. -/
theorem prepared_prepareMemory {s : State} (h : s.memoryWf = true) : s.prepared s.prepareMemory := by
  refine ⟨by rw [prepareMemory_fields], fun hn => by simp [State.prepareMemory, hn], fun x hx => ?_⟩
  have hu : ({ s with mem := x.clear s.mem, toClear := none } : State).memoryWf = true := memWf_clear h x
  simp only [State.prepareMemory, hx, State.writeIdentity]
  refine ⟨?_, ?_, fun a ha => ?_⟩
  · rw [readWord_writeWord_other (by decide), readWord_writeWord_same hu (by decide)]; rfl
  · rw [readWord_writeWord_same (memoryWf_writeWord hu) (by decide)]; rfl
  · rw [readByte_writeWord_other (by omega), readByte_writeWord_other (by omega)]
    exact ⟨fun hc => memGet_clear_covered hc, fun hc => memGet_clear_other hc⟩

end Sys2Proof.Machine
end

