-- ==== Sys2Proof/Tests/Slice0.lean ====
section
/-!
SUPPORT. The model's own tests: commands that the well-formedness check refuses, single steps, and for every
statement with hypotheses a state and operands that meet them together.
-/

namespace Sys2Proof.Tests

open Sys2Proof Sys2Proof.Machine

-- one proof after another: a kernel evaluation waits for all before it, in a thread of its own
set_option Elab.async false

/-! ### Well-formedness -/

theorem test_unknown_code_start : (Instr.unknownCommand 1 0).wellFormed = false := by decide
theorem test_unknown_code_kick : (Instr.unknownCommand 5 0).wellFormed = false := by decide
theorem test_unknown_code_six : (Instr.unknownCommand 6 0).wellFormed = true := by decide
theorem test_ignored_post : (Instr.ignoredRegisterWrite 0 1).wellFormed = false := by decide
theorem test_ignored_control : (Instr.ignoredRegisterWrite 8 1).wellFormed = false := by decide
theorem test_ignored_unaligned : (Instr.ignoredRegisterWrite 0x12 1).wellFormed = false := by decide
theorem test_elapsed_cell : (Instr.elapsedReached 480 {}).wellFormed = false := by decide
theorem test_reset_written : (Instr.reset 0 7).wellFormed = false := by decide

/-! ### States to test on -/

/-- An axis setup within R181. -/
def setup : AxisSetup :=
  { enable := true, floor := 10, maxSpeed := 1000, accel := 100, decel := 100, jerk := 100, stopDecel := 100
    windowHigh := 1, indexSpan := 10 }

/-- No option. -/
def noOpts : Options := ⟨false, false, false, false, false, false⟩

/-- P1 and P2, the rest 0. -/
def params (p1 p2 : Word) : Params := ⟨p1, p2, 0, 0, 0, 0, 0⟩

/-- An active order in cell 3. -/
def order (k : MotionKind) : Entry :=
  { cell := 3, kind := k, opts := noOpts, gate := 2, deadline := 5, params := params 100 50, status := .active
    target := 100 }

/-- An IDLE axis with its drive ready. -/
def idle : Axis := { state := .idle, setup := setup, inputs := { ready := true } }

/-- The axis at work on an order. -/
def busy (k : MotionKind) (st : AxisState) : Axis := { idle with state := st, list := [order k] }

/-- The axis moving on an order, at 20 pulses/s. -/
def going (k : MotionKind) (st : AxisState) : Axis :=
  { busy k st with prof := { speedSq := sqOf 20, phase := .cruising } }

/-- A module with one axis enabled. -/
def bench (m : ModState) (a : Axis) : State :=
  { State.reset with modState := m, axes := ⟨a, {}, {}, {}⟩, held := a.list.map (·.cell) }

/-- A walk at cell 7. -/
def walk7 : Walk := { head := 7, at_ := 7 }

/-- Cell 7 offered, with kind, scope, options, P1 and P2, and a walk at it. -/
def offer (s : State) (kind scope opts : Nat) (p1 p2 : Word) : State :=
  { s.writeWords [(0x9C0, bytes4 1 kind scope opts), (0x9C4, 0xFFFF#32), (0x9CC, p1), (0x9D0, p2)] with
    walk := some walk7 }

/-- A watch in cell 5. -/
def watch5 (q : Quantity) (a : Action) : Watch :=
  { cell := 5, quantity := q, condition := .atOrAbove, threshold := 4, action := a, notify := true
    repeatLeft := 1, truth := false, elapsed := 4 }

/-- A module with a watch in cell 5. -/
def watched (m : ModState) (w : Watch) : State := { bench m idle with watches := [w], held := [5] }

/-- A fault entry. -/
def entry (sc : Scope) : FaultEntry :=
  { scope := sc, code := 205, detail := 0, cell := 0xFFFF, time := 0, count := 1, lastCode := 205 }

/-! ### Single steps -/

theorem test_no_word_spells : decodeTableWord 32 0 = none := rfl
theorem test_start_refused_running : controlTable 1 .running = .refusedState := by decide
theorem test_idle_step : step State.reset = .next State.reset := rfl
theorem test_self_test : ∃ t, exec .selfTestPass State.reset = .next t ∧ t.modState = .stopped ∧
    t.readWord 0 = 0xA28#32 ∧ t.statusWord = 0x401#32 := by
  refine ⟨_, rfl, ?_⟩
  decide +kernel
theorem test_first_pulse : ∃ t, exec (.outputPulse 0 {}) (bench .running (going .moveAbs .running)) = .next t ∧
    (t.axis 0).commanded = 1 ∧ (t.axis 0).followErr = 1 := by
  refine ⟨_, rfl, ?_⟩
  decide +kernel
theorem test_encoder_down : encoderCounts .quad4 false false false true = [-1] := by decide
theorem test_dwell_ends : ∃ t, exec (.dwellEnd 0 {}) (bench .running (busy .dwell .running)) = .next t ∧
    t.chain = [3] ∧ (t.axis 0).state = .idle := by
  refine ⟨_, rfl, ?_⟩
  decide +kernel

/-- A module with watches in cells 5 and 6. -/
def twoWatches : State :=
  { bench .running idle with
    watches := [watch5 .elapsed .latchOnly, { watch5 .elapsed .latchOnly with cell := 6 }], held := [5, 6] }

/-- A COLLECT read between the two linkings of a STOP (R154). -/
theorem test_collect_between_linkings :
    ∃ t, exec (.stop 0 { collects := [1] }) twoWatches = .next t ∧
      t.collectWord = 0x00010005#32 ∧ t.chain = [6] ∧ t.held = [6] ∧ t.returnLink 5 = 0xFFFF := by
  refine ⟨_, rfl, ?_⟩
  decide +kernel

/-- A backplane write to a word that the visit in progress has read already (R6). -/
theorem test_late_word_read_old :
    ∃ t, step { offer (bench .running idle) 4 0 0 1 0 with busWrites := [⟨0x9CC, 9, true⟩] } = .next t ∧
      t.readWord 0x9CC = 9 ∧ (t.cellWords 7).params.p1 = 1 := by
  refine ⟨_, rfl, ?_⟩
  decide +kernel

/-- The check that has read the last field of axis 3 has read the supervision interval; one that has read that of
axis 0 has not read the enable of axis 1 (R181). -/
theorem test_check_reads_in_order :
    (∃ t, step { bench .starting idle with setupRead := [(0x550, 1)], busWrites := [⟨0x10, 5, false⟩] } = .next t ∧
      t.readWord 0x10 = 5 ∧ t.intervalWord = 0) ∧
    (∃ t, step { bench .starting idle with setupRead := [(0x250, 1)], busWrites := [⟨0x300, 1, false⟩] } = .next t ∧
      t.axisField 1 1 = 1) := by
  refine ⟨⟨_, rfl, ?_⟩, ⟨_, rfl, ?_⟩⟩ <;> decide +kernel

/-- A value reported before an assignment is judged before it, and an assignment before what follows it (R118). -/
theorem test_assignment_keeps_its_place :
    pickJob 1 [.evalWatch 5 (.feedbackPos 0) (.value 4), .assign 0] = 0 ∧
    pickJob 1 [.assign 0, .evalWatch 5 (.feedbackPos 0) (.value 4)] = 0 ∧
    pickJob 1 [.evalWatch 5 (.feedbackPos 1) (.value 4), .assign 0] = 1 := by decide

/-- A deceleration that returns to zero does not run below the floor speed (R72, R81, R89). -/
theorem test_return_stops_at_floor :
    Rates.returnSpeed ⟨.smooth, 100, 100, 100, 10, 1000⟩ (sqOf 20) (-10000 * nano) = 10 * nano ∧
    0 < (Rates.smoothContinue ⟨.smooth, 100, 100, 100, 10, 1000⟩ (sqOf 20) (-10000 * nano)).len := by
  decide +kernel

/-- A plan whose return, cut at the floor speed, is longer than its length reaches the floor speed at its target, and
a JOG planned so reports its edge at once (R72, R79, R81, R89). -/
theorem test_short_plan_ends_at_floor : ∀ r : Rates, r = ⟨.smooth, 100, 100, 100, 10, 1000⟩ →
    1 < (r.returnRamp (sqOf 200) (-10000 * nano)).len ∧
    (r.plan (sqOf 200) (-10000 * nano) 1 300 10 true).sqAt 1 = sqOf 10 ∧
    (r.plan (sqOf 200) (-10000 * nano) 1 300 10 true).reportAt = 0 ∧
    (r.plan (sqOf 200) (-10000 * nano) 1 300 10 true).commitAt = some 0 := by
  rintro _ rfl
  decide +kernel

/-- A deceleration asked for nine pulses into a rise at low jerk: the acceleration returns to zero in nine more, and
the S ramp takes eighteen (R88); a target nearer than that is reached at the floor speed, the rest behind the return
LINEAR. -/
theorem test_stop_early_in_rise : ∀ r q, r = (⟨.smooth, 100000, 100000, 100, 10000, 100000⟩ : Rates) →
    q = r.ramp (sqOf 10000) 0 20000 →
    (r.freeStop (q.sqAt 9) (q.accelAt 9)).len = 27 ∧
    (r.stopPlan (q.sqAt 9) (q.accelAt 9) (some 20)).first.len = 9 ∧
    (r.stopPlan (q.sqAt 9) (q.accelAt 9) (some 20)).length = 20 := by
  rintro _ _ rfl rfl
  decide +kernel

/-- The acceleration held is the limit itself, at a jerk that reaches it within 10 ns too: the S ramp ends at its end
speed (R74, R75). -/
theorem test_limit_held_exactly : ∀ r p, r = (⟨.smooth, 11, 11, 2000000000, 10, 1000⟩ : Rates) →
    p = r.ramp (sqOf 10) 0 100 → p.accelAt 1 = 11 * nano ∧
    sqOf 100 - p.sqAt (p.len - 1) < 2 * 11 * nano ^ 2 + nano ^ 2 := by
  rintro _ _ rfl rfl
  decide +kernel

/-- A SMOOTH stop at a negative acceleration that does not fit before the bound is LINEAR at once (R88; log 52). -/
theorem test_stop_in_fall_linear : ∀ r : Rates, r = ⟨.smooth, 100, 100, 100, 10, 1000⟩ →
    5 < (r.freeStop (sqOf 100) (-50 * nano)).len ∧ (r.stopPlan (sqOf 100) (-50 * nano) (some 5)).first.len = 0 ∧
    (r.stopPlan (sqOf 100) (-50 * nano) (some 5)).final = fitRamp (sqOf 100) (sqOf 10) 5 := by
  rintro _ rfl
  decide +kernel

/-- A backplane write before the zeroing of memory is lost, one behind it stands (R177; log 17). -/
theorem test_write_during_power_up : ∀ late ∈ [true, false], ∃ t u,
    step { State.reset with busWrites := [⟨0x10, 9, late⟩] } = .next t ∧ exec .selfTestPass t = .next u ∧
      u.readWord 0x10 = (if late then 9 else 0) ∧ u.readWord 0 = 0xA28#32 ∧ u.modState = .stopped := by
  intro late _
  cases late <;> refine ⟨_, _, rfl, rfl, ?_⟩ <;> decide +kernel

/-- A SMOOTH move with FLY taken over at 20 pulses/s, too short to stop within: its flying decision falls on its
start, and the plan to the junction goes on from the acceleration before it, never below the speed of the start
(R80, R81). -/
theorem test_decision_at_start_keeps_acceleration : ∀ e n : Entry,
    e = { order .moveAbs with opts := { noOpts with fly := true, smooth := true }, params := params 5 20, target := 5 } →
    n = { order .moveAbs with cell := 4, status := .admitted, params := params 300 50 } →
    (((bench .running { going .moveAbs .running with list := [e, n] }).planAndDecide 0 0 e 10).axis 0).prof.plan.map
        (fun p => (p.endSpeed, p.accelAt 0, (List.range 6).map p.sqAt)) =
      some (20, 0, List.replicate 6 (sqOf 20)) := by
  rintro _ _ rfl rfl
  decide +kernel

/-- A plan from 100 pulses/s at a rising acceleration to the end speed 120, 20 pulses long. -/
def cutShort : Plan := Rates.plan ⟨.smooth, 1000, 1000, 100, 10, 10000⟩ (sqOf 100) (100 * nano) 20 500 120 true

/-- A SMOOTH return that starts below the end speed and is longer than the length is made, and cut off by the target
(R77, R81; log 11). -/
theorem test_return_cut_below_end : 20 < cutShort.first.len ∧ cutShort.accelAt 0 = 100 * nano ∧
    sqOf 100 < cutShort.sqAt 1 ∧ cutShort.sqAt 1 < cutShort.sqAt 20 ∧ cutShort.sqAt 20 < sqOf 120 := by
  decide +kernel

/-- A LINEAR move of one pulse with FLY: the commit point is its target, and the SMOOTH successor starts from the
acceleration 0 (R59, R81). -/
theorem test_decision_on_target_leaves_no_acceleration : ∀ e n q, e = ({ order .moveAbs with
      opts := { noOpts with fly := true }, target := 1, params := params 1 50 } : Entry) →
    n = ({ order .moveAbs with
      cell := 4, status := .admitted, params := params 300 50, opts := { noOpts with smooth := true } } : Entry) →
    q = Rates.plan ⟨.linear, 100, 100, 100, 10, 1000⟩ (sqOf 10) 0 1 50 10 true → q.commitAt = some 1 ∧
    (match exec (.outputPulse 0 {}) (bench .running { busy .moveAbs .running with
        list := [e, n], prof := { speedSq := sqOf 10, phase := .cruising, plan := some q } }) with
      | .next t => some ((t.axis 0).list.map (·.cell), (t.axis 0).prof.speedSq, (t.axis 0).prof.accel)
      | .fault _ | .refused _ => none) = some ([4], sqOf 10, 0) := by
  rintro _ _ _ rfl rfl rfl
  decide +kernel

/-! ### Hypotheses that are met -/

theorem test_met_StepRunsFrontCommand :
    ({ State.reset with pending := [.collect, .powerOn] } : State).pending = .collect :: [.powerOn] := rfl

/-- Offsets 2, 7FFC and 8000 Hex; a setup word written late, not late, and after a later word was read; the first
word of the cell of a visit written late, and after another word was read; its last word, not yet read, written in
time; a word beyond it; a write during POWER_UP, late and not. -/
theorem test_met_StepWithoutCommand : State.reset.pending = [] ∧ State.reset.busWrites = [] ∧
    State.reset.memoryWf = true ∧
    (∃ s : State, s.pending = [] ∧ s.busWrites = [⟨2, 1, false⟩]) ∧
    (∃ s : State, s.pending = [] ∧ s.busWrites = [⟨0x8000, 1, false⟩]) ∧
    (∃ s : State, s.pending = [] ∧ s.busWrites = [⟨0x7FFC, 1, false⟩] ∧ s.memoryWf = true ∧ s.modState ≠ .starting) ∧
    (∃ s : State, s.pending = [] ∧ s.busWrites = [⟨0x10, 1, true⟩] ∧ s.memoryWf = true ∧ s.modState = .starting) ∧
    (∃ s : State, s.pending = [] ∧ s.busWrites = [⟨0x54C, 1, false⟩] ∧ s.memoryWf = true ∧ s.modState = .starting ∧
      setupField 0x54C = true ∧ ∃ x ∈ s.setupRead, 0x54C ≤ x.1) ∧
    (∃ s : State, s.pending = [] ∧ s.busWrites = [⟨0x554, 1, true⟩] ∧ s.modState = .starting ∧
      setupField 0x554 = false) ∧
    (∃ s : State, s.pending = [] ∧ s.busWrites = [⟨0x550, 1, false⟩] ∧ s.memoryWf = true ∧ s.modState = .starting ∧
      setupField 0x550 = true ∧ ∀ x ∈ s.setupRead, x.1 < 0x550) ∧
    (∃ s : State, s.pending = [] ∧ s.busWrites = [⟨0x800 + 64 * walk7.at_, 1, false⟩] ∧ s.memoryWf = true ∧
      s.walk = some walk7 ∧ s.visitRead ≠ []) ∧
    (∃ s : State, s.pending = [] ∧ s.busWrites = [⟨0x800 + 64 * walk7.at_, 1, true⟩] ∧ s.memoryWf = true ∧
      s.walk = some walk7) ∧
    (∃ s : State, s.pending = [] ∧ s.busWrites = [⟨0x800 + 64 * walk7.at_ + 60, 1, false⟩] ∧ s.memoryWf = true ∧
      s.walk = some walk7 ∧ s.visitRead = [(0x9C0, 1)] ∧ ∀ x ∈ s.visitRead, x.1 ≠ 0x800 + 64 * walk7.at_ + 60) ∧
    (∃ s : State, s.pending = [] ∧ s.busWrites = [⟨0x800 + 64 * walk7.at_ + 64, 1, true⟩] ∧ s.walk = some walk7) ∧
    (∃ s : State, s.pending = [] ∧ s.busWrites = [⟨0x10, 1, true⟩] ∧ s.memoryWf = true ∧ s.modState = .powerUp ∧
      s.toClear ≠ none) ∧
    (∃ s : State, s.pending = [] ∧ s.busWrites = [⟨0x10, 1, false⟩] ∧ s.memoryWf = true ∧ s.modState = .powerUp) := by
  refine ⟨rfl, rfl, rfl, ⟨{ State.reset with busWrites := [⟨2, 1, false⟩] }, rfl, rfl⟩,
    ⟨{ State.reset with busWrites := [⟨0x8000, 1, false⟩] }, rfl, rfl⟩,
    ⟨{ State.reset with busWrites := [⟨0x7FFC, 1, false⟩] }, rfl, rfl, rfl, by decide⟩,
    ⟨{ State.reset with modState := .starting, busWrites := [⟨0x10, 1, true⟩] }, rfl, rfl, rfl, rfl⟩,
    ⟨{ State.reset with modState := .starting, setupRead := [(0x550, 1)], busWrites := [⟨0x54C, 1, false⟩] },
      rfl, rfl, rfl, rfl, rfl, (0x550, 1), by decide⟩,
    ⟨{ State.reset with modState := .starting, busWrites := [⟨0x554, 1, true⟩] }, rfl, rfl, rfl, rfl⟩,
    ⟨{ State.reset with modState := .starting, setupRead := [(0x54C, 1)], busWrites := [⟨0x550, 1, false⟩] },
      rfl, rfl, rfl, rfl, rfl, by decide⟩,
    ⟨{ State.reset with walk := some walk7, visitRead := [(0x9CC, 1)], busWrites := [⟨0x9C0, 1, false⟩] },
      rfl, rfl, rfl, rfl, by decide⟩,
    ⟨{ State.reset with walk := some walk7, busWrites := [⟨0x9C0, 1, true⟩] }, rfl, rfl, rfl, rfl⟩,
    ⟨{ State.reset with walk := some walk7, visitRead := [(0x9C0, 1)], busWrites := [⟨0x9FC, 1, false⟩] },
      rfl, rfl, rfl, rfl, rfl, by decide⟩,
    ⟨{ State.reset with walk := some walk7, busWrites := [⟨0xA00, 1, true⟩] }, rfl, rfl, rfl⟩,
    ⟨{ State.reset with busWrites := [⟨0x10, 1, true⟩] }, rfl, rfl, rfl, rfl, by decide⟩,
    ⟨{ State.reset with busWrites := [⟨0x10, 1, false⟩] }, rfl, rfl, rfl, rfl⟩⟩

theorem test_met_ResetsLeave : clearedByReset 0x7FF ∧ ¬ clearedByReset 0x800 ∧
    (∀ w, State.reset.offeredAt w → ¬ inResultPart w.at_ 0x800) ∧
    (∃ s w, State.offeredAt s w) := by
  refine ⟨by simp [clearedByReset], by simp [clearedByReset], fun w h => by simp [State.offeredAt, State.reset] at h,
    offer (bench .running idle) 4 0 0 7 0, walk7, ?_⟩
  unfold State.offeredAt
  decide +kernel

/-- Right after power-on, after a RESET, and where the sequence has already zeroed memory. -/
theorem test_met_SelfTestEnds : ∀ x ∈ [some Extent.whole, some Extent.images, none],
    ∃ s : State, s.toClear = x ∧ s.modState = .powerUp ∧ s.memoryWf = true ∧ s.faults = [] ∧ s.clock = 0 :=
  fun x _ => ⟨{ State.reset with toClear := x }, rfl, rfl, rfl, rfl, rfl⟩

/-- One state meets every clause but those about STARTING and POWER_UP. -/
theorem test_met_NotDueChangesNothing :
    (bench .stopped idle).modState ≠ .powerUp ∧ (bench .stopped idle).modState ≠ .starting ∧
    ((bench .starting idle).setupFailure = none) ∧
    (((bench .starting idle).writeWord 0x10 5).setupFailure ≠ none) ∧
    (bench .stopped idle).walk = none ∧ (bench .stopped idle).modState ≠ .stopping ∧
    (bench .stopping (busy .dwell .running)).allAtRest = false ∧
    ((bench .stopped idle).axis 0).moving = false ∧
    (∃ f, inputCommand (.driveReadyChange 0 true {}) = some (0, f) ∧
      f ((bench .stopped idle).axis 0).inputs = ((bench .stopped idle).axis 0).inputs) ∧
    (bench .stopped idle).events.get 1 = false ∧ State.reset.modState = .powerUp ∧
    (bench .stopped idle).watchOf 5 = none ∧ ((bench .stopped idle).axis 0).list = [] ∧
    ((bench .stopped idle).axis 0).ref.clearTimer ≠ some 0 ∧
    ((bench .stopped idle).triggers.get 0).timer ≠ some 0 ∧
    (bench .stopped idle).modState ≠ .running ∧ (bench .running idle).supTimer ≠ some 0 := by
  refine ⟨by decide, by decide, by decide +kernel, by decide +kernel, rfl, by decide, by decide, by decide,
    ⟨fun i => { i with ready := true }, rfl, rfl⟩, rfl, rfl, rfl, rfl, by decide, by decide, by decide, by decide⟩

/-- An order whose deadline, duration or pause has 1 ms left, one that is not ACTIVE, one of another kind; watches
that observe something else, that are true already, or whose count is short; a FAULTED axis, and one at either end
of the range. -/
theorem test_met_NotDueWithWork :
    (∃ e : Entry, (bench .running (busy .dwell .running)).head? 0 = some e ∧ e.deadlineTimer ≠ some 0) ∧
    (∃ e : Entry, (bench .running { busy .dwell .waiting with list := [{ order .dwell with status := .waiting }] }).head? 0
      = some e ∧ e.status ≠ .active) ∧
    (∃ e : Entry, (bench .running { busy .dwell .running with list := [{ order .dwell with dwellLeft := 1 }] }).head? 0
      = some e ∧ e.dwellLeft ≠ 0) ∧
    (∃ e : Entry, (bench .running (going .jog .running)).head? 0 = some e ∧ e.kind ≠ .dwell) ∧
    ({ phase := .pause, pauseTimer := some 1 } : RefCtl).pauseTimer ≠ some 0 ∧
    (going .jog .held).state ≠ .running ∧
    (∃ v : Watch, (watched .running (watch5 (.speed 0) .latchOnly)).watchOf 5 = some v ∧ v.quantity ≠ .elapsed) ∧
    (∃ v : Watch, (watched .running { watch5 .elapsed .latchOnly with truth := true }).watchOf 5 = some v ∧
      v.truth = true) ∧
    (∃ v : Watch, (watched .running { watch5 .elapsed .latchOnly with elapsed := 3 }).watchOf 5 = some v ∧
      v.condition.holds v.threshold (.value v.elapsed) = false) ∧
    (going .jog .faulted).state = .faulted ∧
    ({ going .jog .running with commanded := 0x7FFFFFFF#32 } : Axis).commanded.toInt + Dir.plus.sign = 2147483648 ∧
    ({ going .jog .running with commanded := 0x80000000#32 } : Axis).commanded.toInt + Dir.minus.sign = -2147483649 := by
  refine ⟨⟨order .dwell, ?_⟩, ⟨{ order .dwell with status := .waiting }, ?_⟩,
    ⟨{ order .dwell with dwellLeft := 1 }, ?_⟩, ⟨order .jog, ?_⟩, ?_, ?_, ⟨watch5 (.speed 0) .latchOnly, ?_⟩,
    ⟨{ watch5 .elapsed .latchOnly with truth := true }, ?_⟩,
    ⟨{ watch5 .elapsed .latchOnly with elapsed := 3 }, ?_⟩, ?_⟩ <;> decide +kernel

/-- The place between the two linkings of a STOP, and the places at its ends, which are no such places. -/
theorem test_met_CollectDetachesChain : ∃ t, exec (withCollects (.stop 0 {}) []) twoWatches = .next t ∧
    raceOf (.stop 0 {}) ≠ none ∧ twoWatches.chain.length < 1 ∧ 1 < t.chain.length ∧ t.memoryWf = true ∧
    (t.chain.take 1).getLast? = some 5 ∧ 0 ≤ twoWatches.chain.length ∧ t.chain.length ≤ 2 := by
  refine ⟨_, rfl, by simp [raceOf], ?_⟩
  decide +kernel

/-- Seven and eight heads waiting. -/
theorem test_met_PostWrite : State.reset.modState = .powerUp ∧ (bench .running idle).modState ≠ .powerUp ∧
    (∃ s : State, s.modState ≠ .powerUp ∧ s.postQueue.length = 7) ∧
    (∃ s : State, s.modState ≠ .powerUp ∧ s.postQueue.length = 8) := by
  refine ⟨rfl, by decide, ⟨{ bench .running idle with postQueue := List.replicate 7 0 }, by decide, rfl⟩,
    ⟨{ bench .running idle with postQueue := List.replicate 8 0 }, by decide, rfl⟩⟩

theorem test_met_ControlReadback : controlParts (.unknownCommand 6 1) = some (6, 1) ∧
    (Instr.unknownCommand 6 1).wellFormed = true ∧ controlParts (.stop 1 {}) = some (2, 1) ∧
    (Instr.stop 1 {}).wellFormed = true ∧ (bench .running (busy .dwell .running)).onePlace ∧
    controlTable 2 .stopped ≠ .taken ∧ controlTable 2 .running = .taken ∧
    (∃ t, exec .powerOn State.reset = .next t) ∧ (∃ t, exec .selfTestFail State.reset = .next t) ∧
    (∃ t, exec (.start 0) (bench .stopped idle) = .next t ∧ t.readback.outcome = .taken) ∧
    (∃ t, exec (.stop 0 {}) (bench .running idle) = .next t ∧ t.readback.outcome = .taken) := by
  refine ⟨rfl, by decide, rfl, by decide, ?_, by decide, by decide, ⟨_, rfl⟩, ⟨_, rfl⟩, ⟨_, rfl, ?_⟩, ⟨_, rfl, ?_⟩⟩
  · unfold State.onePlace
    decide +kernel
  · decide +kernel
  · decide +kernel

theorem test_met_StartAndSetupCheckPasses_start : (bench .stopped idle).modState = .stopped := rfl

theorem test_met_AckKickAndLine_ack : (bench .running idle).modState ≠ .powerUp ∧ (bench .running idle).modState ≠ .halted ∧
    (bench .halted idle).modState = .halted ∧ (∃ t, exec (.ack 7) State.reset = .next t) :=
  ⟨by decide, by decide, rfl, ⟨_, rfl⟩⟩

theorem test_met_AckKickAndLine_line : State.reset.modState = .powerUp ∧ State.reset.mask = ⟨false, false, false⟩ ∧
    (∃ t, exec (.reset 0 0) State.reset = .next t) ∧ (∃ t, exec .selfTestPass State.reset = .next t) :=
  ⟨rfl, rfl, ⟨_, rfl⟩, ⟨_, rfl⟩⟩

theorem test_met_StatusAndIgnoredWrites : State.reset.faults = [] ∧
    ({ State.reset with faults := [entry .module] } : State).faults = entry .module :: [] ∧
    (Instr.ignoredRegisterWrite 0x4 1).wellFormed = true ∧ (Instr.ignoredRegisterWrite 0xC 1).wellFormed = true ∧
    (Instr.ignoredRegisterWrite 0x10 1).wellFormed = true :=
  ⟨rfl, rfl, by decide, by decide, by decide⟩

/-- A module at rest with two watches; one whose axis 0 moves on a MOVE_ABS before a DWELL; one in STOPPING whose
axes have come to rest. -/
theorem test_met_ModuleStopAtRest : twoWatches.modState = .running ∧ twoWatches.standing ∧ twoWatches.agenda = [] ∧
    (∀ ax, (twoWatches.axis ax).ref.assignDue = false) ∧ twoWatches.onePlace ∧ twoWatches.memoryWf = true ∧
    (∃ (s : State) (e : Entry) (es : List Entry), s.modState = .silent ∧ s.watches = [] ∧ s.agenda = [] ∧
      (∀ j, (s.axis j).ref.assignDue = false) ∧ s.onePlace ∧ s.memoryWf = true ∧
      (∀ j, j ≠ 0 → (s.axis j).standsEmpty) ∧ (s.axis 0).list = e :: es ∧ (∀ n ∈ es, n.status = .admitted) ∧
      es ≠ [] ∧ (s.axis 0).state = .running ∧ e.kind.moves = true ∧ e.opts.smooth = false ∧
      sqOf (s.axis 0).setup.floor < (s.axis 0).prof.speedSq ∧ 0 < (s.axis 0).setup.stopDecel ∧
      (s.axis 0).prof.dir = e.dir ∧ -2147483647 ≤ e.target ∧ e.target ≤ 2147483647 ∧
      0 < e.remaining (s.axis 0).commanded.toInt) ∧
    (bench .stopping idle).modState = .stopping ∧ (bench .stopping idle).allAtRest = true := by
  simp only [State.standing, State.onePlace, Axis.standsEmpty]
  refine ⟨rfl, ?_, rfl, ?_, ?_, rfl,
    ⟨bench .silent { going .moveAbs .running with
      list := [order .moveAbs, { order .dwell with cell := 4, status := .admitted }] },
      order .moveAbs, [{ order .dwell with cell := 4, status := .admitted }], ?_⟩, rfl, ?_⟩ <;> decide +kernel

theorem test_met_SetupCheckFails : ((bench .starting idle).writeWord 0x10 5).modState = .starting ∧
    ((bench .starting idle).writeWord 0x10 5).setupFailure = some 65281 := by decide +kernel

/-- Intervals 9, 10, 10,000 and 10,001; blocks that pass and blocks that fail at fields 1, 2 and 21. -/
theorem test_met_SetupCheckFails_fields : (bench .starting idle).setupRead = [] ∧
    ((bench .starting idle).writeWord 0x10 9).intervalWord.toNat < 10 ∧
    ((bench .starting idle).writeWord 0x10 10).intervalWord = 10 ∧
    ((bench .starting idle).writeWord 0x10 10000).intervalWord = 10000 ∧
    10000 < ((bench .starting idle).writeWord 0x10 10001).intervalWord.toNat ∧
    (∀ ax, blockPasses ((bench .starting idle).axisField ax)) ∧
    blockFailsAt (((bench .starting idle).writeWord 0x300 2).axisField 1) 1 ∧
    blockFailsAt (((bench .starting idle).writeWords [(0x300, 1), (0x304, 2)]).axisField 1) 2 ∧
    blockFailsAt (((bench .starting idle).writeWords
      [(0x300, 1), (0x30C, 1), (0x310, 1), (0x314, 10), (0x318, 100), (0x31C, 10), (0x320, 10), (0x324, 100),
       (0x328, 10), (0x334, 1)]).axisField 1) 21 := by
  refine ⟨rfl, by decide +kernel, by decide +kernel, by decide +kernel, by decide +kernel,
    fun ax => Or.inl ?_, Or.inl ?_, Or.inr ?_, Or.inr ?_⟩
  · revert ax
    decide +kernel
  · decide +kernel
  · refine ⟨by decide +kernel, by decide, by decide, ?_, fun j h1 h2 => by omega⟩
    show ¬ (_ ≤ 1)
    decide +kernel
  · refine ⟨by decide +kernel, by decide, by decide, ?_, fun j h1 h2 => ?_⟩
    · show ¬ (1 ≤ _ ∧ _)
      decide +kernel
    · interval_cases j <;> simp only [fieldPasses] <;> decide +kernel

/-- The setup words of an axis that is to be enabled, with its following error supervised. -/
def enabling : State :=
  (bench .starting idle).writeWords
    [(0x200, 1), (0x20C, 1), (0x210, 1), (0x214, 10), (0x218, 100), (0x21C, 10), (0x220, 10), (0x224, 100),
     (0x228, 10), (0x234, 1), (0x238, 1), (0x250, 1)]

theorem test_met_StartAndSetupCheckPasses_check : enabling.modState = .starting ∧ enabling.setupFailure = none ∧
    enabling.standing ∧ enabling.watches = [] ∧ enabling.agenda = [] ∧
    (∀ ax, (enabling.axis ax).ref.assignDue = false) ∧ enabling.axisField 0 1 ≠ 0 ∧
    (∀ ax : AxisIx, enabling.axisField ax 1 ≠ 0 →
      activeState (enabling.axis ax).inputs.alarm ((enabling.axisField ax 16).getLsbD 5) = false ∧
      (enabling.axisField ax 15 = 0 ∨ (followErrorOf (setupOf (enabling.axisField ax)) (enabling.axis ax).commanded
        (enabling.axis ax).feedback).toInt.natAbs ≤ (enabling.axisField ax 15).toNat)) := by
  simp only [State.standing, Axis.standsEmpty]
  decide +kernel

theorem test_met_WalkBeginsAndEnds_begins : (∃ s : State, s.walk = none ∧ s.postQueue = [3]) ∧
    (∃ s : State, s.walk ≠ none ∧ s.postQueue = [3]) ∧ State.reset.postQueue = [] :=
  ⟨⟨{ State.reset with postQueue := [3] }, rfl, rfl⟩,
    ⟨{ State.reset with postQueue := [3], walk := some walk7 }, by decide, rfl⟩, rfl⟩

/-- Indexes FFFF, 480 and FFFE; cell 479 held, and not offered by its header word. -/
theorem test_met_WalkBeginsAndEnds_ends : (bench .running idle).settled = true ∧
    (0xFFFF = 0xFFFF) ∧ (480 ≤ 480 ∧ 480 ≠ 0xFFFF) ∧ (480 ≤ 0xFFFE ∧ 0xFFFE ≠ 0xFFFF) ∧
    (∃ s : State, s.settled = true ∧ s.walk = some { head := 479, at_ := 479 } ∧ 479 ∈ s.held) ∧
    (∃ s : State, s.settled = true ∧ s.walk = some { head := 479, at_ := 479 } ∧
      (s.cellWords 479).header.extractLsb' 0 8 ≠ 1) :=
  ⟨by decide +kernel, rfl, by decide, by decide,
    ⟨{ bench .running idle with walk := some { head := 479, at_ := 479 }, held := [479] }, by decide +kernel, rfl,
      by decide +kernel⟩,
    ⟨{ bench .running idle with walk := some { head := 479, at_ := 479 } }, by decide +kernel, rfl,
      by decide +kernel⟩⟩

theorem test_met_KindsAndScopes : (kindOfCode 0x29).isSome = true ∧ (scopeOfCode 0xFF).isSome = true ∧
    kindOfCode ((offer (bench .running idle) 6 0 0 0 0).cellWords 7).kindCode = none ∧
    (∃ c : CellWords, kindOfCode c.kindCode = some .armWatch ∧
      ∀ sc, scopeOfCode c.scopeCode = some sc → Kind.armWatch.permits sc = false) := by
  refine ⟨by decide, by decide, by decide +kernel, (offer (bench .running idle) 0x10 1 0 0 0).cellWords 7,
    by decide +kernel, ?_⟩
  have h : scopeOfCode ((offer (bench .running idle) 0x10 1 0 0 0).cellWords 7).scopeCode = some (.axis 1) := by
    decide +kernel
  intro sc hs
  rw [h] at hs
  cases hs
  rfl

/-- The words of cell 7 as offered. -/
def cell7 (kind scope opts : Nat) (p1 p2 : Word) : CellWords := (offer (bench .running idle) kind scope opts p1 p2).cellWords 7

/-- A clause of each of checks 3 to 8: a DWELL on an axis, an ARM_WATCH, a CLOSE_GATE. -/
theorem test_met_AdmissionOrder :
    kindOfCode (cell7 4 0 0 60000 0).kindCode = some (.motion .dwell) ∧
    scopeOfCode (cell7 4 0 0 60000 0).scopeCode = some (.axis 0) ∧ (Kind.motion .dwell).permits (.axis 0) = true ∧
    kindOfCode (cell7 0x27 255 0 15 0).kindCode = some (.control .closeGate) ∧
    scopeOfCode (cell7 0x27 255 0 15 0).scopeCode = some .module ∧ (Kind.control .closeGate).permits .module = true ∧
    (bench .silent idle).modState = .silent ∧ (bench .stopped idle).modState = .stopped ∧
    (bench .halted idle).modState = .halted ∧ ((bench .running idle).axis 1).state = .disabled ∧
    ((bench .running { idle with state := .faulted }).axis 0).state = .faulted ∧
    (⟨true, false, false, false⟩ : Quad Bool).get 0 = true ∧ (⟨false, false, false, false⟩ : Quad Bool).get 0 = false ∧
    (bench .running idle).paramCheck (.motion .dwell) (.axis 0) (cell7 4 0 0 60001 0) = some 1 ∧
    (bench .running idle).paramCheck (.motion .dwell) (.axis 0) (cell7 4 0 0 60000 0) = none ∧
    (bench .running idle).paramCheck (.control .closeGate) .module (cell7 0x27 255 0 16 0) = some 1 ∧
    (bench .running idle).paramCheck (.control .closeGate) .module (cell7 0x27 255 0 15 0) = none ∧
    16 ≤ ((bench .running { idle with list := List.replicate 16 (order .dwell) }).axis 0).list.length := by
  decide +kernel

/-- The words of a JOG with these parameters, options and timing word. -/
def jogWords (ps : Params) (opts timing : Word) : CellWords :=
  { header := 0x0301#32 + opts * 16777216#32, links := 0xFFFF, params := ps, timing := timing }

/-- A boundary value on each side of every range. -/
theorem test_met_MoveParametersJudged :
    1 < (params 2 50).p1.toNat ∧ (params 1 50).p1.toNat ≤ 1 ∧ (params 1 9).p2.toNat < 10 ∧
    1000 < (params 1 1001).p2.toNat ∧ (10 ≤ (params 1 10).p2.toNat ∧ (params 1 1000).p2.toNat ≤ 1000) ∧
    (9 : Word).toNat < 10 ∧ (9 : Word) ≠ 0 ∧ 20000000 < (20000001 : Word).toNat ∧ (20000000 : Word).toNat ≤ 20000000 ∧
    (99 : Word).toNat < 100 ∧ 2000000000 < (2000000001 : Word).toNat ∧
    (jogWords (params 0 50) 4 0x100000#32).options.gated = true ∧ 16 ≤ (jogWords (params 0 50) 4 0x100000#32).gateNumber ∧
    (jogWords (params 0 50) 4 0xF0000#32).gateNumber < 16 ∧
    (jogWords (params 0 50) 16 0).options.deadline = true ∧ (jogWords (params 0 50) 16 0).deadline = 0 := by
  decide +kernel

/-- Each kind of check after the moves, on either side of a boundary. -/
theorem test_ranges_judged :
    rangeCheck 10 1000 (.motion .dwell) (jogWords (params 60001 0) 4 0x100000#32) = some 1 ∧
    rangeCheck 10 1000 (.motion .dwell) (jogWords (params 60000 0) 4 0x100000#32) = some 8 ∧
    rangeCheck 10 1000 (.motion .dwell) (jogWords (params 60000 0) 16 0) = some 9 ∧
    rangeCheck 10 1000 (.motion .reference) (jogWords ⟨1, 1000, 10, 1, 0x103E8, 0, 0x64000000⟩ 0 0) = none ∧
    rangeCheck 10 1000 (.motion .reference) (jogWords ⟨1, 1000, 11, 1, 0x103E8, 0, 0x64000000⟩ 0 0) = some 3 ∧
    rangeCheck 10 1000 (.motion .reference) (jogWords ⟨1, 1000, 10, 1, 0x103E9, 0, 0x64000000⟩ 0 0) = some 5 ∧
    rangeCheck 10 1000 (.motion .reference) (jogWords ⟨1, 1000, 10, 1, 0x203E8, 0, 0x64000000⟩ 0 0) = some 5 ∧
    rangeCheck 10 1000 (.motion .reference) (jogWords ⟨1, 1000, 10, 1, 0x103E8, 0, 0x65000000⟩ 0 0) = some 7 ∧
    rangeCheck 10 1000 .armWatch (jogWords ⟨2, 3, 4, 0, 5, 3, 400000⟩ 0 0) = none ∧
    rangeCheck 10 1000 .armWatch (jogWords ⟨3, 3, 4, 0, 5, 3, 400000⟩ 0 0) = some 3 ∧
    rangeCheck 10 1000 .armWatch (jogWords ⟨5, 3, 9, 0, 6, 3, 1001⟩ 0 0) = some 7 ∧
    rangeCheck 10 1000 .armWatch (jogWords ⟨6, 9, 1, 0, 1, 16, 0⟩ 0 0) = some 6 ∧
    rangeCheck 10 1000 .armWatch (jogWords ⟨7, 3, 1, 0, 7, 0, 0⟩ 0 0) = some 1 ∧
    rangeCheck 10 1000 (.control .override) (jogWords (params 201 0) 0 0) = some 1 ∧
    rangeCheck 10 1000 (.control .cancelWatch) (jogWords (params 480 0) 0 0) = some 1 := by
  decide +kernel

theorem test_met_VisitRefusesCell : ∃ s : State, s.memoryWf = true ∧ s.onePlace ∧ s.settled = true ∧ s.offeredAt walk7 ∧
    s.decides walk7 = .refused .axisDisabled 0 (some 1) := by
  refine ⟨offer (bench .running (busy .dwell .running)) 4 1 1 7 0, ?_⟩
  unfold State.onePlace State.offeredAt
  decide +kernel

theorem test_met_VisitQueuesOrder_joins : ∃ s : State, s.memoryWf = true ∧ s.quiet = true ∧ s.offeredAt walk7 ∧
    s.decides walk7 = .motion .jog 0 ∧ (s.axis 0).state ≠ .idle := by
  refine ⟨offer (bench .running (busy .dwell .running)) 3 0 0 1 50, ?_⟩
  unfold State.offeredAt
  decide +kernel

/-- A DWELL at a closed gate; a DWELL of 1 ms that is not gated. -/
theorem test_met_VisitQueuesOrder_starts :
    (∃ s : State, s.memoryWf = true ∧ s.quiet = true ∧ s.offeredAt walk7 ∧ s.decides walk7 = .motion .dwell 0 ∧
      (s.axis 0).state = .idle ∧ (s.axis 0).list = [] ∧
      (entryOf 7 .dwell (s.cellWords 7)).opts.gated = true ∧ s.gateOpen (entryOf 7 .dwell (s.cellWords 7)).gate = false) ∧
    (∃ s : State, s.memoryWf = true ∧ s.quiet = true ∧ s.offeredAt walk7 ∧ s.decides walk7 = .motion .dwell 0 ∧
      (s.axis 0).state = .idle ∧ (s.axis 0).list = [] ∧ (entryOf 7 .dwell (s.cellWords 7)).params.p1 ≠ 0 ∧
      ((entryOf 7 .dwell (s.cellWords 7)).opts.gated = true →
        s.gateOpen (entryOf 7 .dwell (s.cellWords 7)).gate = true)) := by
  refine ⟨⟨offer (bench .running idle) 4 0 4 1 0, ?_⟩, ⟨offer (bench .running idle) 4 0 0 1 0, ?_⟩⟩ <;>
    unfold State.offeredAt <;> decide +kernel

/-- A MOVE_ABS to 100 and a MOVE_REL by -100. -/
theorem test_met_VisitStartsMove :
    (∃ s : State, s.memoryWf = true ∧ s.quiet = true ∧ s.watches = [] ∧ s.offeredAt walk7 ∧
      s.decides walk7 = .motion .moveAbs 0 ∧ (s.axis 0).state = .idle ∧ (s.axis 0).list = [] ∧
      (s.axis 0).moving = false ∧ (s.cellWords 7).options.gated = false ∧ (s.cellWords 7).params.p1.toInt = 100 ∧
      (s.axis 0).commanded.toInt = 0 ∧ (s.axis 0).setup.windowEnable = false ∧ (s.axis 0).setup.requireRef = false ∧
      (s.axis 0).readyActive = true ∧ (s.axis 0).limitActive .plus = false) ∧
    (∃ s : State, s.memoryWf = true ∧ s.quiet = true ∧ s.watches = [] ∧ s.offeredAt walk7 ∧
      s.decides walk7 = .motion .moveRel 0 ∧ (s.axis 0).state = .idle ∧ (s.axis 0).list = [] ∧
      (s.axis 0).moving = false ∧ (s.cellWords 7).options.gated = false ∧
      (s.axis 0).commanded.toInt + (s.cellWords 7).params.p1.toInt = -100 ∧
      (s.axis 0).setup.windowEnable = false ∧ (s.axis 0).setup.requireRef = false ∧
      (s.axis 0).readyActive = true ∧ (s.axis 0).limitActive .minus = false) := by
  refine ⟨⟨offer (bench .running idle) 1 0 0 100 50, ?_⟩, ⟨offer (bench .running idle) 2 0 0 (-100) 50, ?_⟩⟩ <;>
    unfold State.offeredAt <;> decide +kernel

/-- What every order that would start on axis 0 at its admission meets. -/
def offersAlone (s : State) (k : MotionKind) : Bool :=
  s.memoryWf && s.quiet && s.watches.isEmpty && decide (s.walk = some walk7) && !s.held.contains 7
    && (s.cellWords 7).header.extractLsb' 0 8 == 1 && decide (s.decides walk7 = .motion k 0)
    && (s.axis 0).state == .idle && (s.axis 0).list.isEmpty && !(s.axis 0).moving
    && !(entryOf 7 k (s.cellWords 7)).opts.gated

/-- The same with drive ready active. -/
def startsAlone (s : State) (k : MotionKind) : Bool := offersAlone s k && (s.axis 0).readyActive

/-- Cell 7 offered with a REFERENCE on axis 0 at creep speed 5, with the inputs given. -/
def offerRef (i : Inputs) : State :=
  (offer (bench .running { idle with inputs := i }) 5 0 0 0 50).writeWord 0x9D4 5

/-- A JOG toward plus that is SMOOTH, whose window edge is one pulse ahead; one that is LINEAR. -/
theorem test_met_VisitStartsJog : ∃ s u : State, startsAlone s .jog = true ∧ startsAlone u .jog = true ∧
    (entryOf 7 .jog (s.cellWords 7)).opts.smooth = true ∧ (entryOf 7 .jog (u.cellWords 7)).opts.smooth = false ∧
    (s.axis 0).limitActive .plus = false ∧ dirOfWord (entryOf 7 .jog (s.cellWords 7)).params.p1 = .plus ∧
    (jogEdge (s.axis 0).setup .plus - (s.axis 0).commanded.toInt) * Dir.plus.sign = 1 ∧
    0 < (jogEdge (u.axis 0).setup .plus - (u.axis 0).commanded.toInt) * Dir.plus.sign ∧
    0 < rateOr (entryOf 7 .jog (u.cellWords 7)).params.p3 (u.axis 0).setup.accel ∧
    0 < rateOr (entryOf 7 .jog (u.cellWords 7)).params.p4 (u.axis 0).setup.decel := by
  refine ⟨offer (bench .running { idle with setup := { setup with windowEnable := true, windowHigh := 1 } }) 3 0 32 0 50,
    offer (bench .running idle) 3 0 0 0 50, ?_⟩
  decide +kernel

/-- The search input active; the limit of the search direction active; neither. -/
theorem test_met_VisitStartsReference :
    (startsAlone (offerRef { ready := true, reference := true }) .reference = true ∧
      ((offerRef { ready := true, reference := true }).axis 0).limitActive .minus = false ∧
      ((offerRef { ready := true, reference := true }).axis 0).searchActive
        (entryOf 7 .reference ((offerRef { ready := true, reference := true }).cellWords 7)) = true) ∧
    (startsAlone (offerRef { ready := true, limitPlus := true }) .reference = true ∧
      ((offerRef { ready := true, limitPlus := true }).axis 0).limitActive .plus = true ∧
      ((offerRef { ready := true, limitPlus := true }).axis 0).searchActive
        (entryOf 7 .reference ((offerRef { ready := true, limitPlus := true }).cellWords 7)) = false) ∧
    (startsAlone (offerRef { ready := true }) .reference = true ∧
      ((offerRef { ready := true }).axis 0).limitActive .plus = false ∧
      ((offerRef { ready := true }).axis 0).searchActive
        (entryOf 7 .reference ((offerRef { ready := true }).cellWords 7)) = false) ∧
    dirOfWord (entryOf 7 .reference ((offerRef { ready := true }).cellWords 7)).params.p1 = .plus ∧
    (entryOf 7 .reference ((offerRef { ready := true }).cellWords 7)).params.p4 = 0 := by
  decide +kernel

/-- A MOVE_ABS to where the axis stands, a MOVE_REL by 0, a DWELL of 0 ms, a JOG at its window edge. -/
theorem test_met_VisitStartsNothing :
    ∃ a r d j : State, a.onePlace ∧ r.onePlace ∧ d.onePlace ∧ j.onePlace ∧
      startsAlone a .moveAbs = true ∧ startsAlone r .moveRel = true ∧ startsAlone d .dwell = true ∧
      startsAlone j .jog = true ∧
      (entryOf 7 .moveAbs (a.cellWords 7)).params.p1 = (a.axis 0).commanded ∧ (a.axis 0).setup.requireRef = false ∧
      (a.axis 0).allowsTarget .moveAbs (a.axis 0).commanded.toInt ∧
      (entryOf 7 .moveRel (r.cellWords 7)).params.p1 = 0 ∧
      (r.axis 0).allowsTarget .moveRel (r.axis 0).commanded.toInt ∧
      (entryOf 7 .dwell (d.cellWords 7)).params.p1 = 0 ∧ (j.axis 0).limitActive .plus = false ∧
      dirOfWord (entryOf 7 .jog (j.cellWords 7)).params.p1 = .plus ∧
      (jogEdge (j.axis 0).setup .plus - (j.axis 0).commanded.toInt) * Dir.plus.sign = 0 := by
  refine ⟨offer (bench .running idle) 1 0 0 0 50, offer (bench .running idle) 2 0 0 0 50,
    offer (bench .running idle) 4 0 0 0 0,
    offer (bench .running { idle with setup := { setup with windowEnable := true, windowHigh := 0 } }) 3 0 0 0 50, ?_⟩
  unfold State.onePlace Axis.allowsTarget
  refine ⟨?_, ?_, ?_, ?_, ?_⟩ <;> decide +kernel

/-- Cell 7 offered with a move or a JOG on axis 0 that has a window of -50 to 50. -/
def offerFail (a : Axis) (kind : Nat) (p1 : Word) : State :=
  offer (bench .running { a with setup := { setup with windowEnable := true, windowLow := -50, windowHigh := 50 } })
    kind 0 0 p1 50

/-- No drive ready; the limit in the direction of a JOG and of a MOVE_ABS; a MOVE_REL one pulse beyond the range;
targets one pulse beyond the window on either side; a MOVE_ABS that needs a reference, at the window edge. -/
theorem test_met_StartChecksFail :
    (∀ x ∈ [(offerFail { idle with inputs := {} } 1 40, MotionKind.moveAbs), (offerFail idle 2 1, .moveRel),
        (offerFail { idle with inputs := { ready := true, limitPlus := true } } 3 0, .jog),
        (offerFail { idle with inputs := { ready := true, limitMinus := true } } 1 (-10), .moveAbs),
        (offerFail { idle with commanded := 0x7FFFFFFF#32 } 2 1, .moveRel), (offerFail idle 1 51, .moveAbs),
        (offerFail idle 1 (-51), .moveAbs)],
      offersAlone x.1 x.2 = true ∧ x.1.onePlace ∧ x.1.faultEntry (.axis 0) = none) ∧
    ({ idle with inputs := {} } : Axis).readyActive = false ∧
    Axis.limitActive { idle with inputs := { ready := true, limitPlus := true } } .plus = true ∧
    dirOfWord (entryOf 7 .jog ((offerFail idle 3 0).cellWords 7)).params.p1 = .plus ∧
    Axis.limitActive { idle with inputs := { ready := true, limitMinus := true } } (dirTo 0 (-10)) = true ∧
    (0x7FFFFFFF#32).toInt + 1 = 2147483648 ∧ (entryOf 7 .moveAbs ((offerFail idle 1 51).cellWords 7)).params.p1.toInt = 51 ∧
    (entryOf 7 .moveAbs ((offerFail idle 1 (-51)).cellWords 7)).params.p1.toInt = -51 ∧
    (∃ s : State, offersAlone s .moveAbs = true ∧ s.onePlace ∧ (s.axis 0).readyActive = true ∧
      (s.axis 0).limitActive (dirTo 0 50) = false ∧ (s.axis 0).setup.windowHigh = 50 ∧
      (entryOf 7 .moveAbs (s.cellWords 7)).params.p1.toInt = 50 ∧ (s.axis 0).setup.requireRef = true ∧
      (s.axis 0).referenced = false) := by
  unfold State.onePlace
  refine ⟨by decide +kernel, by decide +kernel, by decide +kernel, by decide +kernel, by decide +kernel,
    by decide +kernel, by decide +kernel, by decide +kernel,
    offer (bench .running { idle with setup := { setup with windowEnable := true, windowHigh := 50, requireRef := true } })
      1 0 0 50 50, by decide +kernel⟩

theorem test_met_VisitArmsWatch : ∃ s : State, s.memoryWf = true ∧ s.quiet = true ∧ s.offeredAt walk7 ∧
    s.decides walk7 = .watch := by
  refine ⟨(offer (bench .running idle) 0x10 255 0 6 0).writeWords [(0x9D4, 1), (0x9DC, 7)], ?_⟩
  unfold State.offeredAt
  decide +kernel

/-- The last source, gate, axis and output that the codes name. -/
theorem test_codes_of_watch :
    quantityOf ⟨5, 3, 1, 0, 1, 15, 0⟩ = .eventInput 3 ∧ conditionOf ⟨1, 0, 4, 0, 1, 15, 0⟩ = .equal ∧
    actionOf ⟨1, 0, 1, 0, 1, 0x1000F#32, 0⟩ = .openGate 15 ∧ actionOf ⟨1, 0, 1, 0, 5, 3, 400000⟩ = .setSpeed 3 400000 ∧
    actionOf ⟨1, 0, 1, 0, 6, 3, 1000⟩ = .pulseOutput 3 1000 := by decide +kernel

/-- An OVERRIDE on axis 0 and a CLOSE_GATE. -/
theorem test_met_VisitCarriesOutControl :
    (∃ s s' : State, s.offeredAt walk7 ∧ s.decides walk7 = .done (.axis 0) s' ∧ s'.memoryWf = true ∧
      s'.settled = true ∧ s'.chain = []) ∧
    (∃ s s' : State, s.offeredAt walk7 ∧ s.decides walk7 = .done .module s' ∧ s'.memoryWf = true ∧
      s'.settled = true ∧ s'.chain = []) := by
  refine ⟨⟨offer (bench .running idle) 0x24 0 0 50 0,
      (offer (bench .running idle) 0x24 0 0 50 0).setOverride 0 50, ?_⟩,
    ⟨offer (bench .running idle) 0x27 255 0 15 0,
      (offer (bench .running idle) 0x27 255 0 15 0).setGate 15 false, ?_⟩⟩ <;>
    unfold State.offeredAt <;> decide +kernel

theorem test_met_RequestsRefused : ((bench .running idle).axis 0).state = .idle ∧ (params 0 0).p1 = 0 ∧
    (params 1 0).p1 ≠ 0 ∧ ((bench .running (busy .reference .running)).axis 0).state = .running ∧
    ((bench .running (busy .reference .running)).axis 0).list = order .reference :: [] ∧
    (order .reference).kind = .reference ∧
    ((bench .running { going .jog .stopping with stopCause := .fault }).axis 0).stopCause = .fault ∧
    ((bench .running (going .jog .holding)).axis 0).state = .holding ∧
    ((bench .running { idle with state := .faulted }).axis 0).state ∈
      [AxisState.idle, .waiting, .stopping, .faulted] := by decide +kernel

theorem test_met_RequestsCarriedOut : ((bench .running idle).axis 0).state = .idle ∧
    ((bench .running (busy .dwell .running)).axis 0).state = .running ∧
    ((bench .running (busy .dwell .running)).axis 0).headMoves = false ∧
    ((bench .running (busy .dwell .held)).axis 0).state = .held ∧
    ((bench .running (busy .dwell .held)).axis 0).list = order .dwell :: [] ∧
    (watched .running (watch5 (.commandedPos 0) .latchOnly)).watches[0]? =
      some (watch5 (.commandedPos 0) .latchOnly) := by decide +kernel


/-- A DWELL that is RUNNING, one that is HELD, a JOG without FLY that is HELD. -/
theorem test_met_AdvanceEndsOrder : ∃ s u j : State, s.memoryWf = true ∧ s.onePlace ∧ u.onePlace ∧ j.onePlace ∧
    (order .dwell).cell < 480 ∧ (s.axis 0).list = [order .dwell] ∧ (order .dwell).status = .active ∧
    (order .dwell).fly = .none ∧ (s.axis 0).moving = false ∧ (s.axis 0).state = .running ∧
    (u.axis 0).state = .held ∧ (u.axis 0).list = [order .dwell] ∧ (j.axis 0).list = [order .jog] ∧
    (order .jog).kind.moves = true ∧ (order .jog).opts.fly = false ∧ (j.axis 0).state = .held ∧
    (j.axis 0).moving = false := by
  refine ⟨bench .running (busy .dwell .running), bench .running (busy .dwell .held), bench .running (busy .jog .held), ?_⟩
  unfold State.onePlace
  decide +kernel

/-- A MOVE_ABS with FLY, undecided. -/
def flying : Entry := { order .moveAbs with opts := { noOpts with fly := true } }

/-- A MOVE_ABS to 300 waiting in cell 4. -/
def next300 : Entry := { order .moveAbs with cell := 4, status := .admitted, params := params 300 50 }

/-- An axis on a flying move with an entry behind it, in a state. -/
def flyAxis (n : Entry) (st : AxisState) : Axis := { going .moveAbs st with list := [flying, n] }

/-- A LINEAR move HOLDING at 20 pulses/s, `n` pulses before its target, on an entry with what stands behind it. -/
def holdingAt (e : Entry) (es : List Entry) (n : Nat) : Axis :=
  { going .moveAbs .holding with list := e :: es, commanded := BitVec.ofNat 32 (100 - n) }

/-- The plan that a RESUME gives an axis HOLDING. -/
def resumePlan (a : Axis) (e : Entry) : Plan :=
  (orderRates a.setup e).plan a.prof.speedSq a.prof.accel (e.remaining a.commanded.toInt).toNat (a.targetSpeed e)
    a.setup.floor (e.opts.fly && e.kind.positional)

/-- HOLDING: a move without FLY, a move with FLY far from its target, one near it without a successor and one with, a
JOG far from its edge and one near it; a move and a JOG HELD. -/
theorem test_met_ResumeOfMove :
    (∀ x ∈ [(order .moveAbs, ([] : List Entry), 50), (flying, [next300], 90), (flying, [], 1), (flying, [next300], 1),
        (order .jog, [], 90), (order .jog, [], 1)], ∀ a, a = holdingAt x.1 x.2.1 x.2.2 →
      (bench .running a).watches = [] ∧ x.1.kind.moves = true ∧ (∀ n ∈ x.2.1, n.bound = false) ∧
      0 < x.1.remaining a.commanded.toInt ∧ a.state = .holding ∧ a.moving = true) ∧
    (∀ e ∈ [order .moveAbs, order .jog], 0 < e.remaining (busy e.kind .held).commanded.toInt ∧
      (busy e.kind .held).list = [e] ∧ (busy e.kind .held).moving = false ∧ (busy e.kind .held).readyActive = true ∧
      (busy e.kind .held).limitActive e.dir = false) ∧
    (resumePlan (holdingAt flying [next300] 90) flying).commitAt ≠ some 0 ∧
    (resumePlan (holdingAt flying [] 1) flying).commitAt = some 0 ∧
    (bench .running (holdingAt flying [] 1)).flyFails setup flying none 100 = some 1 ∧
    (bench .running (holdingAt flying [next300] 1)).flyFails setup flying (some next300) 100 = none ∧
    (resumePlan (holdingAt (order .jog) [] 90) (order .jog)).reportAt ≠ 0 ∧
    (resumePlan (holdingAt (order .jog) [] 1) (order .jog)).reportAt = 0 := by
  refine ⟨fun x h a e => ?_, by decide +kernel, by decide +kernel, by decide +kernel, by decide +kernel,
    by decide +kernel, by decide +kernel, by decide +kernel⟩
  subst e
  revert x
  decide +kernel

/-- An ADVANCE on a bound pair; its successor is a MOVE_REL. -/
theorem test_met_AdvanceOnBoundPair : ∀ e n a, e = { flying with fly := .taken, decided := true } →
    n = { next300 with kind := .moveRel, bound := true } → a = { flyAxis n .running with list := [e, n] } →
    (bench .running a).memoryWf = true ∧ (bench .running a).onePlace ∧ a.list = e :: n :: [] ∧
    n.params.p1.toInt ≠ 0 ∧ a.allowsTarget n.kind (a.commanded.toInt + n.params.p1.toInt) ∧ n.opts.fly = false ∧
    a.readyActive = true ∧ a.limitActive (dirTo a.commanded.toInt (a.commanded.toInt + n.params.p1.toInt)) = false := by
  rintro e n a rfl rfl rfl
  unfold State.onePlace Axis.allowsTarget
  decide +kernel

/-- The fly taken in RUNNING, in HOLDING and, at rest, in HELD; declined before a DWELL. -/
theorem test_met_AdvanceFlies :
    (∀ a ∈ [flyAxis next300 .running, flyAxis next300 .holding,
        { flyAxis next300 .held with prof := { phase := .standing } }],
      (bench .running a).memoryWf = true ∧ (bench .running a).onePlace ∧ (bench .running a).watches = [] ∧
      a.list = flying :: next300 :: [] ∧ (a.state = .running ∨ a.state = .holding ∨ a.state = .held) ∧
      (bench .running a).flyFails a.setup flying (some next300) flying.target = none ∧
      next300.params.p1.toInt ≠ a.commanded.toInt ∧ a.allowsTarget .moveAbs next300.params.p1.toInt ∧
      a.readyActive = true ∧ a.limitActive (dirTo a.commanded.toInt next300.params.p1.toInt) = false) ∧
    flying.kind.positional = true ∧ flying.opts.fly = true ∧ flying.decided = false ∧ flying.status = .active ∧
    next300.bound = false ∧ next300.kind = .moveAbs ∧ next300.opts.gated = false ∧ next300.opts.fly = false ∧
    flying.cell < 480 ∧ next300.cell < 480 ∧
    (bench .running (flyAxis { next300 with kind := .dwell } .running)).flyFails setup flying
      (some { next300 with kind := .dwell }) flying.target = some 4 ∧
    flying.opts.smooth = false ∧ sqOf (flyAxis next300 .running).setup.floor < (flyAxis next300 .running).prof.speedSq ∧
    0 < rateOr flying.params.p4 setup.decel ∧ (flyAxis next300 .running).prof.dir = flying.dir ∧
    0 < flying.remaining (flyAxis next300 .running).commanded.toInt := by
  unfold State.onePlace Axis.allowsTarget
  decide +kernel

/-- STOP_AXIS and HOLD on a bound pair. -/
theorem test_met_StopRampBoundByTarget_bound : ∀ e n a, e = { flying with fly := .taken, decided := true } →
    n = { next300 with bound := true } → a = { flyAxis n .running with list := [e, n] } →
    a.state = .running ∧ a.list = e :: n :: [] ∧ n.bound = true ∧ e.kind.moves = true ∧ e.opts.smooth = false ∧
    sqOf a.setup.floor < a.prof.speedSq ∧ a.prof.dir = e.dir ∧ 0 < e.remaining a.commanded.toInt := by
  rintro e n a rfl rfl rfl
  decide +kernel

/-- A MOVE_ABS and a JOG, for each of the three requests; the rate of HOLD and ADVANCE from the setup and from P4. -/
theorem test_met_StopRampBoundByTarget : ∀ k : MotionKind, k = .moveAbs ∨ k = .jog →
    ∃ (a : Axis) (e : Entry), (bench .running a).axis 0 = a ∧ a.state = .running ∧
      a.list = e :: [] ∧ e.kind = k ∧ e.kind.moves = true ∧ e.opts.smooth = false ∧ e.opts.fly = false ∧
      sqOf a.setup.floor < a.prof.speedSq ∧ 0 < a.setup.stopDecel ∧ 0 < rateOr e.params.p4 a.setup.decel ∧
      rateOr 7 a.setup.decel = 7 ∧
      a.prof.dir = e.dir ∧ -2147483647 ≤ e.target ∧ e.target ≤ 2147483647 ∧ 0 < e.remaining a.commanded.toInt := by
  rintro k (rfl | rfl)
  · exact ⟨going .moveAbs .running, order .moveAbs, by decide +kernel⟩
  · exact ⟨going .jog .running, order .jog, by decide +kernel⟩

/-- A DWELL that waits for gate 2. -/
def waitingDwell (cell : Nat) (observe : Bool) : Axis :=
  { idle with
    state := .waiting
    list := [{ order .dwell with cell := cell, status := .waiting, opts := { noOpts with gated := true, observe } }] }

/-- The entry of each axis of `gateQueue`. -/
def gateEntries : AxisIx → Entry := fun ax =>
  { order .dwell with
    cell := 10 + ax.val, status := .waiting, opts := { noOpts with gated := true, observe := ax == 1 || ax == 3 } }

/-- Axes 2, 0 and 1 wait for gate 2, in this order, the first two consuming, the third observing; axis 3, observing,
for gate 3. -/
def gateQueue : State :=
  { State.reset with
    modState := .running, waiting := [(2, 2), (3, 3), (2, 0), (2, 1)], held := [10, 11, 12, 13]
    axes := ⟨waitingDwell 10 false, waitingDwell 11 true, waitingDwell 12 false, waitingDwell 13 true⟩ }

/-- Gate 0 and gate 15; four waiters, of which one observing and the earliest consuming one are released. -/
theorem test_met_GatesOpenAndClose : (params 15 0).p1.toNat = (15 : Fin 16).val ∧
    ((bench .running idle).setGate 15 true).gateOpen 15 = true ∧ (bench .running idle).gateOpen 15 = false ∧
    (∀ ax, ((15 : Fin 16), ax) ∉ (bench .running idle).waiting) ∧
    gateQueue.gateOpen 2 = false ∧ (gateQueue.waiting.map (·.2)).Nodup ∧
    (gateQueue.waiting.filter (fun x => x.1 == 2)).map (·.2) = [2, 0, 1] ∧
    (∀ ax : AxisIx, ax ∈ [(2 : AxisIx), 0, 1] → (gateQueue.axis ax).state = .waiting ∧
      (gateQueue.axis ax).list = [gateEntries ax] ∧ (gateEntries ax).kind = .dwell ∧ (gateEntries ax).params.p1 ≠ 0) ∧
    (∀ ax : AxisIx, (ax == 1 || ax == 2) = true ↔ ax ∈ [(2 : AxisIx), 0, 1] ∧ ((gateEntries ax).opts.observe = true ∨
      [(2 : AxisIx), 0, 1].find? (fun j => !(gateEntries j).opts.observe) = some ax)) := by
  refine ⟨by decide, by decide +kernel, by decide +kernel, by decide +kernel, ?_⟩
  decide +kernel

theorem test_met_CancelAndClear_cancel : ∃ (s : State) (v : Watch), v ∈ s.watches ∧ v.cell = (params 5 0).p1.toNat ∧ v.cell < 480 ∧
    s.memoryWf = true ∧ s.onePlace ∧ (params 6 0).p1.toNat ∉ s.watches.map (·.cell) := by
  refine ⟨watched .running (watch5 .elapsed .latchOnly), watch5 .elapsed .latchOnly, ?_⟩
  unfold State.onePlace
  decide +kernel

/-- An axis with its entry: FAULTED, on its fault ramp, with its alarm active, beyond its limit by one, at its
limit; the module with its entry, RUNNING and SILENT. -/
theorem test_met_CancelAndClear_clear :
    (bench .running idle).faultEntry (.axis 0) = none ∧
    ({ bench .running { idle with state := .faulted } with faults := [entry (.axis 0)] } : State).faultEntry (.axis 0)
      ≠ none ∧
    (Axis.alarmActive { idle with inputs := { alarm := true } } = true) ∧ idle.alarmActive = false ∧
    (Axis.followMagnitude { idle with followErr := 11 } = 11) ∧
    ({ bench .silent idle with faults := [entry .module] } : State).faultEntry .module ≠ none ∧
    ({ bench .silent idle with faults := [entry .module] } : State).modState = .silent := by decide +kernel

/-- A scope without an entry; one between two others, with count 254, and with count 255. -/
theorem test_met_FaultsRecorded : (∀ e ∈ (bench .running idle).faults, e.scope ≠ .module) ∧
    (∃ (s : State) (x e y : FaultEntry), s.faults = [x] ++ e :: [y] ∧ e.scope = .axis 1 ∧ e.count = 254 ∧
      (∀ z ∈ [x] ++ [y], z.scope ≠ .axis 1)) ∧
    (∃ (s : State) (e : FaultEntry), s.faults = [] ++ e :: [] ∧ e.scope = .axis 1 ∧ e.count = 255) :=
  ⟨by decide +kernel,
    ⟨{ State.reset with faults := [entry .module, { entry (.axis 1) with count := 254 }, entry (.axis 2)] },
      entry .module, { entry (.axis 1) with count := 254 }, entry (.axis 2), rfl, rfl, rfl, by decide⟩,
    ⟨{ State.reset with faults := [{ entry (.axis 1) with count := 255 }] }, { entry (.axis 1) with count := 255 },
      rfl, rfl, rfl⟩⟩

theorem test_met_OutputPulseMovesPosition : ∃ s : State, s.onePlace ∧ s.calm = true ∧ (s.axis 0).moving = true ∧
    (s.axis 0).state ≠ .disabled ∧ (s.axis 0).state ≠ .faulted ∧
    (s.axis 0).commanded.toInt + (s.axis 0).prof.dir.sign = 2147483647 := by
  refine ⟨bench .running { going .moveAbs .running with commanded := 0x7FFFFFFE#32 }, ?_⟩
  unfold State.onePlace
  decide +kernel

/-- A plan of 100 pulses at the floor speed with the commit point 60, after `m` pulses. -/
def flat (m : Nat) : Plan :=
  { Rates.openPlan ⟨.linear, 100, 100, 0, 10, 1000⟩ 100 10 with length := 100, commitAt := some 60, moved := m }

/-- An axis that has made `m` pulses of its plan, on an order with an entry behind it. -/
def planned (m : Nat) (es : List Entry) : Axis :=
  { busy .moveAbs .running with
    list := es, commanded := BitVec.ofNat 32 m
    prof := { speedSq := sqOf 10, phase := .cruising, plan := some (flat m) } }

/-- The order's fly decision taken, and the entry behind it bound. -/
def flown : List Entry := [{ flying with fly := .taken, decided := true }, { next300 with bound := true }]

/-- A pulse along the plan; the last pulse of a move alone, and before a bound successor; the pulse that reaches the
commit point with a fly that is taken, and with one that is declined. -/
theorem test_met_PulseFollowUps :
    (∀ a ∈ [planned 0 [order .moveAbs], planned 58 [flying], planned 98 flown, planned 99 [order .moveAbs],
        planned 99 flown, planned 59 [flying, next300], planned 59 [flying]],
      (bench .running a).memoryWf = true ∧ (bench .running a).onePlace ∧ (bench .running a).quiet = true ∧
      a.state = .running ∧ a.moving = true ∧ a.undisturbed ∧ a.ref.phase = .none ∧ a.ref.rampStop = false ∧
      a.prof.pendingReplan = false ∧ a.prof.dir = .plus ∧
      (∀ e ∈ a.list.head?, e.status = .active ∧ e.cell < 480 ∧ e.kind.positional = true ∧ e.dir = .plus)) ∧
    (flat 58).moved + 1 < 60 ∧ (flat 59).commitAt = some ((flat 59).moved + 1) ∧
    (flat 99).moved + 1 = (flat 99).length ∧ next300.kind = .moveAbs ∧ next300.opts.fly = false ∧
    idle.allowsTarget .moveAbs 300 ∧ 0 < ((300 : Int) - 100) * Dir.plus.sign ∧ 0 < flying.remaining 60 ∧
    (bench .running (planned 59 [flying])).flyFails setup flying none flying.target = some 1 ∧
    (bench .running (planned 59 [flying, next300])).flyFails setup flying (some next300) flying.target = none := by
  unfold State.onePlace Axis.undisturbed Axis.allowsTarget
  decide +kernel

/-- An order that is SMOOTH. -/
def smoothly (e : Entry) : Entry := { e with opts := { e.opts with smooth := true } }

/-- An axis on its order at a speed, with one pulse to go. -/
def lastPulse (es : List Entry) (v : Nat) : Axis :=
  { planned 99 es with prof := { (planned 99 es).prof with speedSq := sqOf v } }

/-- A SMOOTH move on its ramp and between its ramps; LINEAR moves without FLY and before a decline; a bound pair that
can come down to its junction and one that cannot; a move HOLDING and one HELD; pulses short of the end of the first
ramp and at it. -/
theorem test_met_OverrideReplans :
    (∀ a ∈ [planned 0 [smoothly (order .moveAbs)], planned 50 [smoothly (order .moveAbs)], planned 50 [order .moveAbs],
        planned 50 [flying], planned 50 flown, lastPulse flown 200],
      a.state = .running ∧ (∀ e ∈ a.list.head?, e.kind.positional = true ∧ 0 < e.remaining a.commanded.toInt) ∧
      (∀ q ∈ a.prof.plan, q.moved < q.length) ∧
      ∃ t, (bench .running a).carryOut .override (.axis 0) (params 50 0) = .done t) ∧
    (flat 0).rampUnderWay = true ∧ (flat 50).rampUnderWay = false ∧
    (bench .running (planned 50 [flying])).flyFails setup flying none flying.target = some 1 ∧
    (∀ a j, a = planned 50 flown → j = a.junctionSpeed flying { next300 with bound := true } (flat 50).endSpeed →
      a.setup.floor ≤ j ∧ a.prof.speedSq ≤ sqOf j) ∧
    (∀ a j, a = lastPulse flown 200 → j = a.junctionSpeed flying { next300 with bound := true } (flat 99).endSpeed →
      ¬ a.prof.speedSq ≤ sqOf j ∧ 1 < linearLen a.prof.speedSq (sqOf j) (rateOr flying.params.p4 a.setup.decel)) ∧
    flying.remaining 99 = 1 ∧ (busy .moveAbs .holding).list = order .moveAbs :: [] ∧
    (busy .moveAbs .held).state = .held ∧
    (∀ n ∈ [1, 2], ∃ (a : Axis) (q : Plan), (bench .running a).quiet = true ∧ a.state = .running ∧ a.moving = true ∧
      a.undisturbed ∧ a.list = smoothly (order .moveAbs) :: [] ∧ a.ref.phase = .none ∧ a.ref.rampStop = false ∧
      a.prof.pendingReplan = true ∧ a.prof.plan = some q ∧ q.moved + 1 < q.length ∧ q.first.len = n ∧ q.moved = 0 ∧
      0 < (smoothly (order .moveAbs)).remaining (a.commanded.toInt + a.prof.dir.sign)) := by
  unfold Axis.undisturbed
  refine ⟨?_, by decide +kernel, by decide +kernel, by decide +kernel, ?_, ?_, by decide +kernel, rfl, rfl, ?_⟩
  · refine List.forall_mem_cons.2 ⟨⟨by decide +kernel, by decide +kernel, by decide +kernel, _, rfl⟩, ?_⟩
    refine List.forall_mem_cons.2 ⟨⟨by decide +kernel, by decide +kernel, by decide +kernel, _, rfl⟩, ?_⟩
    refine List.forall_mem_cons.2 ⟨⟨by decide +kernel, by decide +kernel, by decide +kernel, _, rfl⟩, ?_⟩
    refine List.forall_mem_cons.2 ⟨⟨by decide +kernel, by decide +kernel, by decide +kernel, _, rfl⟩, ?_⟩
    refine List.forall_mem_cons.2 ⟨⟨by decide +kernel, by decide +kernel, by decide +kernel, _, rfl⟩, ?_⟩
    exact List.forall_mem_cons.2 ⟨⟨by decide +kernel, by decide +kernel, by decide +kernel, _, rfl⟩, by simp⟩
  · rintro _ _ rfl rfl
    decide +kernel
  · rintro _ _ rfl rfl
    decide +kernel
  · intro n h
    refine ⟨{ planned 0 [smoothly (order .moveAbs)] with
        prof := { (planned 0 []).prof with
          pendingReplan := true, plan := some { flat 0 with first := { (flat 0).first with len := n } } } },
      { flat 0 with first := { (flat 0).first with len := n } }, ?_⟩
    revert n
    decide +kernel

/-- The plan with the pulse that reports an edge. -/
def edgePlan (m : Nat) : Plan := { flat m with reportAt := 60 }

/-- The last pulse of a ramp of each cause and end, of a HOLDING move before and on its target, of a fault ramp; a JOG
one pulse before its decel point and at it. -/
theorem test_met_RampsEnd :
    (∀ a ∈ [{ lastPulse [order .moveAbs] 10 with state := .stopping, stopCause := .request, rampEnd := .stopped },
        { lastPulse [order .jog] 10 with state := .stopping, stopCause := .request, rampEnd := .advanced },
        { lastPulse [order .jog] 10 with state := .stopping, stopCause := .limitEdge, rampEnd := .limited },
        { lastPulse [order .moveAbs] 10 with state := .holding },
        { lastPulse [{ order .jog with target := 300 }] 10 with state := .holding },
        { lastPulse [] 10 with state := .stopping, stopCause := .fault, pendingFault := true }],
      (bench .running a).memoryWf = true ∧ (bench .running a).onePlace ∧ (bench .running a).quiet = true ∧
      a.moving = true ∧ a.undisturbed ∧ a.ref.phase = .none ∧ a.ref.rampStop = false ∧
      (∀ q ∈ a.prof.plan, q.moved + 1 = q.length) ∧ a.commanded.toInt + a.prof.dir.sign = 100 ∧
      ∀ e ∈ a.list, e.status = .active ∧ e.kind.moves = true ∧ e.cell < 480) ∧
    (order .moveAbs).target = 100 ∧ ({ order .jog with target := 300 } : Entry).target ≠ 100 ∧
    (∀ m ∈ [58, 59], ∃ a : Axis, (bench .running a).memoryWf = true ∧ (bench .running a).onePlace ∧
      (bench .running a).quiet = true ∧ a.moving = true ∧ a.undisturbed ∧ a.prof.plan = some (edgePlan m) ∧
      a.ref.phase = .none ∧ a.ref.rampStop = false ∧ a.list = order .jog :: [] ∧ a.state = .running ∧
      a.prof.pendingReplan = false ∧ (edgePlan m).moved + 1 < (edgePlan m).length ∧
      ((edgePlan m).moved + 1 < (edgePlan m).reportAt ↔ m = 58)) := by
  unfold State.onePlace Axis.undisturbed
  refine ⟨by decide +kernel, rfl, by decide +kernel, fun m h => ?_⟩
  refine ⟨{ planned m [order .jog] with prof := { (planned m []).prof with plan := some (edgePlan m) } }, ?_⟩
  revert m
  decide +kernel

theorem test_met_InputsTaken : (bench .running idle).onePlace ∧ (bench .running idle).calm = true := by
  unfold State.onePlace
  decide +kernel

theorem test_met_FollowingErrorComputed : ({ setup with ratioNum := 4 } : AxisSetup).ratioNum = 4 ∧
    ({ setup with ratioNum := 4 } : AxisSetup).ratioDen = 1 ∧
    (watch5 (.followingError 2) .latchOnly).quantity = .followingError 2 := ⟨rfl, rfl, rfl⟩

theorem test_met_InputsTaken_levels : (bench .stopping (going .moveAbs .stopping)).onePlace ∧
    (∃ f, inputCommand (.limitInputChange 0 .minus true {}) = some (0, f)) ∧
    uncollected (.limitInputChange 0 .minus true {}) := by
  refine ⟨?_, ⟨_, rfl⟩, fun r h => by cases h; rfl⟩
  unfold State.onePlace
  decide +kernel

/-- A plus limit met, drive ready lost, a drive alarm, each by a moving MOVE_ABS. -/
theorem test_met_InputFaultsMotion : ∃ s : State, s.calm = true ∧ s.watches = [] ∧ s.faultEntry (.axis 0) = none ∧
    (s.axis 0).state = .running ∧ (s.axis 0).moving = true ∧ (s.axis 0).list = order .moveAbs :: [] ∧
    (s.axis 0).ref.phase = .none ∧ (s.axis 0).prof.dir = .plus ∧
    (Axis.limitActive { s.axis 0 with inputs := { (s.axis 0).inputs with limitPlus := true } } .plus = true ∧
      (s.axis 0).seen.limit = false ∧ (s.axis 0).inputs.limitPlus = false) ∧
    (Axis.readyActive { s.axis 0 with inputs := { (s.axis 0).inputs with ready := false } } = false ∧
      (s.axis 0).seen.ready = false ∧ (s.axis 0).inputs.ready = true) ∧
    (Axis.alarmActive { s.axis 0 with inputs := { (s.axis 0).inputs with alarm := true } } = true ∧
      (s.axis 0).seen.alarm = false ∧ (s.axis 0).inputs.alarm = false) :=
  ⟨bench .running (going .moveAbs .running), by decide +kernel⟩

/-- The same three with the order alone on its axis, under the ramp reaction and the abrupt one; a following error that
an edge takes beyond a limit of 5, on an IDLE axis and on a moving one, and in STOPPED. -/
theorem test_met_InputFaultsRecorded :
    (∀ react ∈ [Reaction.ramp, .abrupt], ∀ a : Axis,
      a = { going .moveAbs .running with setup := { setup with limitReaction := react, followReaction := react } } →
      (bench .running a).memoryWf = true ∧ (bench .running a).onePlace ∧ (bench .running a).quiet = true ∧
      (bench .running a).faultEntry (.axis 0) = none ∧ a.state = .running ∧ a.moving = true ∧
      a.list = [order .moveAbs] ∧ (order .moveAbs).opts.smooth = false ∧ a.setup.followLimit = 0 ∧
      a.limitActive a.prof.dir = false ∧ a.readyActive = true ∧ a.alarmActive = false ∧
      sqOf a.setup.floor < a.prof.speedSq ∧ 0 < a.setup.stopDecel ∧ 0 < a.rangeBound ∧
      Axis.limitActive { a with inputs := { a.inputs with limitPlus := true } } .plus = true ∧
      Axis.readyActive { a with inputs := { a.inputs with ready := false } } = false ∧
      Axis.alarmActive { a with inputs := { a.inputs with alarm := true } } = true) ∧
    (∀ a ∈ [idle, going .moveAbs .running], ∀ m ∈ [ModState.running, .silent, .stopped], ∀ x : Axis,
      x = { a with commanded := 5, followErr := 5, setup := { setup with followLimit := 5 } } →
      (bench m x).memoryWf = true ∧ (bench m x).onePlace ∧ (bench m x).quiet = true ∧ x.state ≠ .disabled ∧
      x.seen.follow = false ∧ encoderCounts x.setup.encMode x.encA x.encB false true = [-1] ∧
      x.setup.followLimit < (followErrorOf x.setup x.commanded (-1)).toInt.natAbs ∧
      ¬ (x.setup.followLimit < x.followErr.toInt.natAbs)) := by
  unfold State.onePlace
  refine ⟨fun react h a e => ?_, fun a h m k x e => ?_⟩
  · subst e
    revert react
    decide +kernel
  · subst e
    revert a m
    decide +kernel

/-- A REFERENCE run at creep speed in a phase. -/
def creeping (ph : RefPhase) : Axis := { going .reference .running with ref := { phase := ph } }

/-- A REFERENCE run in a phase, with a pause of 20 ms, index use 1 where asked, and inputs. -/
def seeking (ph : RefPhase) (index : Bool) (i : Inputs) : Axis :=
  { creeping ph with
    inputs := i
    list := [{ order .reference with params := { params 0 50 with p5 := if index then 0x10014#32 else 20#32 } }] }

/-- APPROACH that meets the switch, and the limit; SEEK_BACK that meets the switch, and leaves it; CLEAR that leaves
it; CREEP with index use 1 that meets it; a pulse of each phase, and the last of a ramp-stop in APPROACH with the switch
active and not, and in SEEK_BACK; the last pulse but one of the index span. -/
theorem test_met_ReferencePhases :
    (∀ a ∈ [seeking .approach false { ready := true }, seeking .seekBack false { ready := true },
        { seeking .seekBack false { ready := true, reference := true } with
          ref := { phase := .seekBack, switchSeen := true } },
        seeking .clear false { ready := true, reference := true }, seeking .creep true { ready := true }],
      (bench .running a).quiet = true ∧ a.state = .running ∧ a.moving = true ∧ a.ref.rampStop = false ∧
      a.alarmActive = false ∧ a.setup.followLimit = 0 ∧ a.canRamp a.setup.decel ∧
      (∀ e ∈ a.list.head?, e.kind = .reference ∧ e.status = .active ∧ e.params.p4 = 0 ∧
        (e.params.p5.extractLsb' 0 16).toNat = 20 ∧ (a.ref.phase = .creep → e.params.p5.extractLsb' 16 16 = 1) ∧
        Axis.searchActive { a with inputs := { ready := true, reference := true } } e = true ∧
        Axis.searchActive { a with inputs := { ready := true } } e = false ∧ e.searchDir = .plus)) ∧
    Axis.limitActive { creeping .approach with inputs := { ready := true, limitPlus := true } } .plus = true ∧
    (seeking .creep true { ready := true, reference := true }).indexActive = false ∧
    (∀ ph ∈ [RefPhase.approach, .seekBack, .clear, .creep, .index], ∀ sw ∈ [false, true], ∀ last ∈ [false, true],
      ∀ a : Axis, a = { seeking ph false { ready := true, reference := sw } with
        ref := { phase := ph, rampStop := last, indexStart := -8 }
        prof := { speedSq := sqOf 20, phase := .decelerating, plan := if last then some (flat 99) else none } } →
      (bench .running a).quiet = true ∧ a.state = .running ∧ a.moving = true ∧ a.undisturbed ∧
      a.prof.pendingReplan = false ∧ a.commanded.toInt + a.prof.dir.sign = 1 ∧
      (1 - a.ref.indexStart.toInt).natAbs + 1 = a.setup.indexSpan ∧
      ∀ e ∈ a.list.head?, a.searchActive e = sw) := by
  unfold Axis.canRamp Axis.undisturbed
  refine ⟨by decide +kernel, by decide +kernel, by decide +kernel, fun ph h sw k last l a e => ?_⟩
  subst e
  revert ph sw last
  decide +kernel

/-- A REFERENCE run in its pause before a phase. -/
def pausing (next : RefPhase) : Axis :=
  { busy .reference .running with ref := { phase := .pause, next := next, pauseTimer := some 0 } }

/-- The run in its pause before OFFSET, with an offset that ends at the edge of the range. -/
def beforeOffset : Axis :=
  { pausing .offset with
    commanded := 0x7FFFFFFC#32, list := [{ order .reference with params := { params 0 50 with p7 := 3 } }] }

/-- SEEK_BACK that meets the limit toward minus; CLEAR and CREEP that meet it; CREEP that meets the switch with the
index mark active; the pulse that completes the index span; pauses before CREEP with the switch active, and before an
OFFSET that leads one pulse beyond the range. -/
theorem test_met_ReferenceRunsEndEarly :
    (∀ a ∈ [{ seeking .seekBack false { ready := true } with prof := { speedSq := sqOf 10, phase := .cruising, dir := .minus } },
        { seeking .clear false { ready := true, reference := true } with
          prof := { speedSq := sqOf 5, phase := .cruising, dir := .minus } },
        seeking .creep false { ready := true }, seeking .creep true { ready := true, index := true },
        { seeking .index true { ready := true } with ref := { phase := .index, indexStart := -9 } },
        { seeking .pause false { ready := true, reference := true } with
          ref := { phase := .pause, next := .creep, pauseTimer := some 0 }, prof := {} },
        { beforeOffset with commanded := 0x7FFFFFFD#32, followErr := 0x7FFFFFFD#32 }],
      (bench .running a).memoryWf = true ∧ (bench .running a).onePlace ∧ (bench .running a).quiet = true ∧
      (bench .running a).faultEntry (.axis 0) = none ∧ a.state = .running ∧ a.alarmActive = false ∧
      a.setup.followLimit = 0 ∧ a.seen.limit = false ∧ a.ref.switchSeen = false ∧
      ∀ e ∈ a.list, e.kind = .reference ∧ e.status = .active ∧ e.fly = .none ∧ e.opts.smooth = false ∧ e.cell < 480 ∧
        e.params.p4 = 0) ∧
    Axis.limitActive { creeping .seekBack with inputs := { ready := true, limitMinus := true } } .minus = true ∧
    Axis.limitActive { creeping .creep with inputs := { ready := true, limitPlus := true } } .plus = true ∧
    Axis.indexActive { creeping .creep with inputs := { ready := true, reference := true, index := true } } = true ∧
    (seeking .index true { ready := true }).undisturbed ∧ (seeking .index true { ready := true }).prof.plan = none ∧
    (1 - (-9#32).toInt).natAbs = setup.indexSpan ∧
    (∀ e ∈ beforeOffset.list, (0x7FFFFFFD#32).toInt + (e.params.p7.extractLsb' 0 24).toInt = 2147483648) := by
  unfold State.onePlace Axis.undisturbed
  decide +kernel

/-- The reference switch met in CREEP, the index input in INDEX, with P7 equal to 0; the stop of axis 0 complete
within the command, and later. -/
theorem test_met_ReferenceEdge : (0 : AxisIx) ∈ ({} : Race).settle ∧ (0 : AxisIx) ∉ ({ settle := [1] } : Race).settle ∧
    (bench .running (creeping .creep)).memoryWf = true ∧
    (bench .running (creeping .creep)).quiet = true ∧ (bench .running (creeping .creep)).watches = [] ∧
    (creeping .creep).state = .running ∧ (creeping .creep).list = [order .reference] ∧
    (order .reference).status = .active ∧ (order .reference).cell < 480 ∧ (bench .running (creeping .creep)).chain = [] ∧
    (creeping .creep).setup.followLimit = 0 ∧ (creeping .creep).alarmActive = false ∧ (creeping .creep).moving = true ∧
    (creeping .creep).referenceActive = false ∧
    Axis.referenceActive { creeping .creep with inputs := { (creeping .creep).inputs with reference := true } } = true ∧
    (creeping .creep).ref.phase = .creep ∧ (order .reference).params.p4 = 0 ∧
    (order .reference).params.p5.extractLsb' 16 16 = 0 ∧ (order .reference).params.p7 = 0 ∧
    (creeping .index).indexActive = false ∧ (creeping .index).ref.phase = .index ∧
    Axis.indexActive { creeping .index with inputs := { (creeping .index).inputs with index := true } } = true := by
  decide +kernel

/-- A run that creeps, one that stands in a pause, one in APPROACH, one in OFFSET; the last pulse of the stop ramp. -/
theorem test_met_ReferenceStopped :
    (∀ a ∈ [creeping .clear, pausing .creep, creeping .approach, creeping .offset,
        { lastPulse [order .reference] 10 with
          state := .stopping, stopCause := .request, rampEnd := .stopped, ref := { phase := .seekBack } }],
      (bench .running a).memoryWf = true ∧ (bench .running a).onePlace ∧ (bench .running a).watches = [] ∧
      (bench .running a).quiet = true ∧ a.list = [order .reference]) ∧
    (order .reference).fly = .none ∧ (creeping .clear).ref.phase.creeps = true ∧ (pausing .creep).moving = false ∧
    (creeping .approach).canRamp setup.stopDecel ∧ (creeping .offset).prof.dir = (order .reference).dir ∧
    0 < (order .reference).remaining (creeping .offset).commanded.toInt ∧
    (lastPulse [order .reference] 10).moving = true ∧ (lastPulse [order .reference] 10).undisturbed ∧
    (flat 99).moved + 1 = (flat 99).length := by
  unfold State.onePlace Axis.undisturbed Axis.canRamp
  decide +kernel

/-- A MOVE_ABS and a MOVE_REL from whose whole speed a stop is possible, one from which it is not, at the cap and at the
floor speed; a JOG. -/
theorem test_met_FlyConditions_junction : ∀ a e n j, a = going .moveAbs .running → e = order .moveAbs →
    n = next300 → j = { next300 with kind := .jog } →
    n.kind.moves = true ∧ j.kind = .jog ∧ n.opts.smooth = false ∧ 50 < 2 ^ 19 ∧
    linearLen (sqOf 50) (sqOf a.setup.floor) (rateOr n.params.p4 a.setup.decel) ≤
      (n.targetFrom a.setup e.target - e.target).natAbs ∧
    a.junctionSpeed e n 50 = 50 ∧ a.junctionSpeed e n 10 = 10 ∧ a.junctionSpeed e j 40 = 40 ∧
    a.junctionSpeed e { n with params := params 101 50 } 50 = 17 ∧
    linearLen (sqOf 17) (sqOf 10) 100 = 1 ∧ linearLen (sqOf 18) (sqOf 10) 100 = 2 := by
  rintro _ _ _ _ rfl rfl rfl rfl
  decide +kernel

/-- A successor beyond the target, one not beyond it, a JOG back, one at a closed and at an open gate. -/
theorem test_met_FlyConditions :
    (order .moveRel).kind.moves = true ∧ 0 < ((order .moveRel).targetFrom setup 100 - 100) * (order .moveAbs).dir.sign ∧
    ¬ (0 < ((order .moveAbs).targetFrom setup 100 - 100) * (order .moveAbs).dir.sign) ∧
    (order .jog).kind = .jog ∧ dirOfWord (order .jog).params.p1 ≠ (order .moveAbs).dir ∧
    ({ order .moveRel with opts := { noOpts with gated := true } } : Entry).opts.gated = true ∧
    (bench .running idle).gateOpen 2 = false ∧ ((bench .running idle).setGate 2 true).gateOpen 2 = true := by
  decide +kernel

theorem test_met_RampsAndWorkedPlans : 0 < 100 ∧ 0 < linearLen 100 10000 100 ∧
    linearLen 100 10000 100 ≤ linearLen 100 10000 100 := by decide +kernel

/-- Event input 1 unwatched, and watched by a watch that pulses trigger output 2; output 2's timer run out. -/
theorem test_met_EventInputAndTrigger : (bench .running idle).settled = true ∧
    (bench .running idle).unwatched (.eventInput 1) = true ∧
    (∃ (s : State) (v : Watch), s.quiet = true ∧ s.watches = [v] ∧ v.quantity = .eventInput 1 ∧ v.truth = false ∧
      v.action = .pulseOutput 2 9 ∧ v.repeatLeft ≠ 1 ∧ s.events.get 1 = false ∧ s.memoryWf = true ∧ v.cell < 480) ∧
    (∃ s : State, (s.triggers.get 2).timer = some 0) :=
  ⟨by decide +kernel, by decide +kernel,
    ⟨watched .running { watch5 (.eventInput 1) (.pulseOutput 2 9) with repeatLeft := 2 },
      { watch5 (.eventInput 1) (.pulseOutput 2 9) with repeatLeft := 2 }, by decide +kernel⟩,
    ⟨{ bench .running idle with triggers := ⟨{}, {}, ⟨true, some 0⟩, {}⟩ }, rfl⟩⟩

/-- A module with a watch that is ready to fire, on axis 0, and axis 0 in a state. -/
def ready (w : Watch) (a : Axis) : State := { bench .running a with watches := [w], held := a.list.map (·.cell) ++ [5] }

/-- A watch with repeats left. -/
def again (q : Quantity) : Watch := { watch5 q .latchOnly with repeatLeft := 2, threshold := 1 }

/-- Each action on an axis whose state it applies to, and on one whose state it does not, with repeats left and on the
last; a watch on each quantity of an axis that an encoder edge or a pulse makes true. -/
theorem test_met_WatchFires :
    (∀ act ∈ [Action.openGate 15, .advance 0, .hold 0, .stop 0, .setSpeed 0 30, .pulseOutput 3 9, .latchOnly],
      ∀ a ∈ [going .moveAbs .running, busy .moveAbs .waiting, { idle with state := .faulted }], ∀ n ∈ [0, 1, 2],
      ∀ w : Watch, w = { watch5 (.commandedPos 0) act with repeatLeft := n } →
      (ready w a).memoryWf = true ∧ (ready w a).onePlace ∧ w ∈ (ready w a).watches ∧ w.cell < 480 ∧ w.truth = false ∧
      w.condition.holds w.threshold (.value 4) = true ∧ w.fireCount < 0xFFFFFFFF ∧ w.quantity ≠ .elapsed) ∧
    (State.actionDue (bench .running (going .moveAbs .running)) (.hold 0) ∧
      ¬ State.actionDue (bench .running (busy .moveAbs .waiting)) (.hold 0) ∧
      State.actionDue (bench .running (busy .moveAbs .waiting)) (.stop 0)) ∧
    (∀ q ∈ [Quantity.feedbackPos 0, .followingError 0], (ready (again q) idle).memoryWf = true ∧
      (ready (again q) idle).onePlace ∧ (ready (again q) idle).quiet = true ∧ (again q).truth = false ∧
      (again q).condition.holds (again q).threshold (.value 1) = true) ∧
    idle.setup.followLimit = 0 ∧ encoderCounts .quad4 false false true false = [1] ∧
    (followErrorOf setup 0 1).toInt.natAbs = 1 ∧
    (∀ q ∈ [Quantity.commandedPos 0, .speed 0], ∀ a : Axis, a = { lastPulse [order .moveAbs] 20 with
        commanded := 0, prof := { speedSq := sqOf 20, phase := .cruising, plan := some (flat 50) } } →
      (ready (again q) a).memoryWf = true ∧ (ready (again q) a).onePlace ∧ (ready (again q) a).quiet = true ∧
      a.moving = true ∧ a.undisturbed ∧ a.state = .running ∧ (flat 50).moved + 1 < (flat 50).length ∧
      a.list = order .moveAbs :: [] ∧ (order .moveAbs).opts.fly = false ∧
      max (sqOf a.setup.floor) (min (sqOf a.setup.maxSpeed) ((flat 50).sqAt 51)) ≠ a.prof.speedSq ∧
      (again q).condition.holds (again q).threshold (.value (a.commanded.toInt + a.prof.dir.sign)) = true ∧
      (again q).condition.holds (again q).threshold (.speedSq (sqOf 10)) = true) := by
  unfold State.onePlace Axis.undisturbed
  refine ⟨fun act h a k n l w e => ?_, ⟨?_, ?_, ?_⟩, by decide +kernel, rfl, by decide, by decide +kernel,
    fun q h a e => ?_⟩
  · subst e
    revert act a n
    decide +kernel
  · exact Or.inl ⟨by decide, order .moveAbs, [], rfl, by decide⟩
  · rintro (⟨h, _⟩ | h | h) <;> revert h <;> decide
  · show _ ∈ _
    decide
  · subst e
    revert q
    decide +kernel

/-- The last repeat, and repeats left. -/
theorem test_met_ElapsedWatchFires : ∃ (s : State) (v : Watch), s.memoryWf = true ∧ s.onePlace ∧ s.quiet = true ∧
    v ∈ s.watches ∧ v.cell < 480 ∧ v.quantity = .elapsed ∧ v.truth = false ∧ v.action = .latchOnly ∧
    v.condition.holds v.threshold (.value v.elapsed) = true ∧ v.fireCount < 0xFFFFFFFF ∧ v.repeatLeft = 1 ∧
    ({ v with repeatLeft := 2 } : Watch).repeatLeft ≠ 1 := by
  refine ⟨watched .running (watch5 .elapsed .latchOnly), watch5 .elapsed .latchOnly, ?_⟩
  unfold State.onePlace
  decide +kernel

theorem test_met_MillisecondTick : ∃ (s : State) (v w : Watch), s.modState ≠ .powerUp ∧ s.settled = true ∧
    s.watches = [v, w] ∧ v.quantity ≠ .elapsed ∧ w.quantity = .elapsed ∧ (s.axis 1).list = [] ∧
    (s.axis 0).list = order .dwell :: [] :=
  ⟨{ bench .running (busy .dwell .running) with
      watches := [watch5 (.eventInput 0) .latchOnly, watch5 .elapsed .latchOnly] },
    watch5 (.eventInput 0) .latchOnly, watch5 .elapsed .latchOnly, by decide +kernel⟩

theorem test_met_ImagesRefreshed : ∃ (s : State) (v : Watch) (e : FaultEntry), s.modState ≠ .powerUp ∧
    s.memoryWf = true ∧ s.watches[15]? = some v ∧ s.watches[16]? = none ∧ s.faults[4]? = some e ∧
    State.reset.watches[15]? = none ∧ (s.axis 0).list = [] ∧ (s.axis 0).prof.speedSq = sqOf 0 ∧
    sqOf (2 ^ 72 - 1) = ({ speedSq := sqOf (2 ^ 72 - 1) } : Profile).speedSq :=
  ⟨{ bench .running idle with
      watches := List.replicate 16 (watch5 .elapsed .latchOnly), faults := List.replicate 5 (entry .module) },
    watch5 .elapsed .latchOnly, entry .module, by decide +kernel⟩

theorem test_met_DeadlineAndDwellEnd_deadline : ∃ (s : State) (e : Entry), s.memoryWf = true ∧ s.onePlace ∧ s.calm = true ∧
    s.watches = [] ∧ s.faultEntry (.axis 0) = none ∧ (s.axis 0).list = e :: [] ∧ e.status = .active ∧
    e.deadlineTimer = some 0 ∧ e.cell < 480 ∧ (s.axis 0).state ∈ [AxisState.running, .holding, .held, .stopping] ∧
    ¬ ((s.axis 0).state = .stopping ∧ (s.axis 0).stopCause = .fault) := by
  refine ⟨bench .running { going .moveAbs .running with list := [{ order .moveAbs with deadlineTimer := some 0 }] },
    { order .moveAbs with deadlineTimer := some 0 }, ?_⟩
  unfold State.onePlace
  decide +kernel

theorem test_met_DeadlineAndDwellEnd_dwell : ∃ (s : State) (e : Entry), s.memoryWf = true ∧ s.onePlace ∧ s.quiet = true ∧
    (s.axis 0).state = .running ∧ (s.axis 0).moving = false ∧ (s.axis 0).list = [e] ∧ e.status = .active ∧
    e.kind = .dwell ∧ e.dwellLeft = 0 ∧ e.cell < 480 := by
  refine ⟨bench .running (busy .dwell .running), order .dwell, ?_⟩
  unfold State.onePlace
  decide +kernel

/-- A REFERENCE run in CLEAR_PULSE with its timer run out. -/
def clearing : Axis :=
  { busy .reference .running with ref := { phase := .clearPulse, clearTimer := some 0, clearOut := true } }

/-- The pauses before CREEP, CLEAR, SEEK_BACK, CLEAR_PULSE and OFFSET; a clear pulse that ends in its phase, and one
that has outlived its run. -/
theorem test_met_ReferenceTimersEnd :
    (∀ n : RefPhase, (bench .running (pausing n)).quiet = true ∧ (bench .running (pausing n)).watches = [] ∧
      (pausing n).state = .running ∧ (pausing n).list = order .reference :: [] ∧ (pausing n).ref.phase = .pause ∧
      (pausing n).ref.next = n ∧ (pausing n).ref.pauseTimer = some 0 ∧ (pausing n).moving = false ∧
      (pausing n).readyActive = true ∧ (pausing n).limitPlusActive = false ∧ (pausing n).limitMinusActive = false ∧
      (pausing n).referenceActive = false) ∧ (order .reference).params.p4 = 0 ∧
    Axis.referenceActive { pausing .clear with inputs := { ready := true, reference := true } } = true ∧
    (bench .running beforeOffset).quiet = true ∧ beforeOffset.state = .running ∧ beforeOffset.ref.next = .offset ∧
    beforeOffset.readyActive = true ∧ beforeOffset.moving = false ∧
    (∀ e ∈ beforeOffset.list, e.params.p4 = 0 ∧ (e.params.p7.extractLsb' 0 24).toInt ≠ 0 ∧
      beforeOffset.commanded.toInt + (e.params.p7.extractLsb' 0 24).toInt = 2147483647) ∧
    (bench .running clearing).memoryWf = true ∧ (bench .running clearing).onePlace ∧ (order .reference).cell < 480 ∧
    (bench .running clearing).quiet = true ∧ clearing.ref.clearTimer = some 0 ∧ clearing.ref.phase = .clearPulse ∧
    clearing.state = .running ∧ clearing.list = [order .reference] ∧ (order .reference).kind = .reference ∧
    (order .reference).status = .active ∧ (order .reference).params.p7.extractLsb' 0 24 = 0 ∧ clearing.moving = false ∧
    ({ idle with ref := { clearTimer := some 0, clearOut := true } } : Axis).ref.phase ≠ .clearPulse ∧
    (bench .running { idle with ref := { clearTimer := some 0, clearOut := true } }).settled = true := by
  refine ⟨fun n => by cases n <;> decide +kernel, ?_⟩
  unfold State.onePlace
  decide +kernel

theorem test_met_SupervisionExpires : ∃ s : State, s.modState = .running ∧ s.supTimer = some 0 ∧ s.onePlace ∧
    s.standing ∧ s.agenda = [] ∧ (∀ ax, (s.axis ax).ref.assignDue = false) := by
  refine ⟨{ bench .running idle with supTimer := some 0 }, ?_⟩
  simp only [State.onePlace, State.standing, Axis.standsEmpty]
  decide +kernel

/-- An axis under a silence action. -/
def silenced (act : SilenceAction) (a : Axis) : Axis := { a with setup := { setup with silence := act } }

/-- Under each action an axis WAITING, RUNNING a DWELL, a LINEAR move, a bound pair and a REFERENCE that creeps and that
approaches, HOLDING, HELD, STOPPING by a request with two entries behind the head, FAULTED, and on a fault ramp. -/
theorem test_met_SilenceActions : ∀ act ∈ [SilenceAction.carryOn, .rampStop, .abruptStop],
    (∀ a ∈ [{ idle with state := .faulted, stopCause := .fault },
        { lastPulse [] 10 with state := .stopping, stopCause := .fault }], ∀ s : State,
      s = { bench .running (silenced act a) with supTimer := some 0 } →
      s.onePlace ∧ s.calm = true ∧ (∀ j, j ≠ 0 → (s.axis j).standsEmpty) ∧ (s.axis 0).list = []) ∧
    (∀ a ∈ [{ busy .moveAbs .waiting with list := [{ order .moveAbs with status := .waiting }] }, busy .dwell .running,
        going .moveAbs .running, planned 50 flown, creeping .clear, creeping .approach, going .moveAbs .holding,
        busy .moveAbs .held, { going .moveAbs .stopping with
          stopCause := .request, list := [order .moveAbs, next300, { next300 with cell := 6 }] }], ∀ s : State,
      s = { bench .running (silenced act a) with supTimer := some 0 } →
      s.memoryWf = true ∧ s.onePlace ∧ s.calm = true ∧ s.watches = [] ∧ (∀ j, j ≠ 0 → (s.axis j).standsEmpty) ∧
      a.bindingOk ∧ (∀ n ∈ a.list.tail, n.status = .admitted ∧ n.cell < 480) ∧
      (∀ e ∈ a.list.head?, e.cell < 480 ∧ (e.status = .active ↔ a.state ≠ .waiting) ∧ 0 < e.remaining a.commanded.toInt ∧
        a.prof.dir = e.dir)) ∧
    (going .moveAbs .running).canRamp setup.stopDecel ∧ (creeping .approach).canRamp setup.stopDecel ∧
    (creeping .approach).moving = true := by
  intro act _
  simp only [State.onePlace, Axis.standsEmpty, Axis.canRamp, Axis.bindingOk]
  refine ⟨fun a h s e => ?_, fun a h s e => ?_, by decide +kernel, by decide +kernel, rfl⟩
  · subst e
    revert a
    cases act <;> decide +kernel
  · subst e
    revert a
    cases act <;> decide +kernel

/-- One state, with a bound pair and standing axes, meets the hypotheses of the invariants that every step keeps. -/
theorem test_met_Invariants : ∃ s t : State, s.memoryWf = true ∧ s.onePlace ∧ s.withinBounds ∧
    (∀ ax, (s.axis ax).errOk) ∧ (s.modState = .stopping → s.allAtRest = false) ∧ (∀ ax, (s.axis ax).standingOk) ∧
    (∀ ax, (s.axis ax).bindingOk) ∧ (s.axis 1).moving = false ∧ (∃ n ∈ (s.axis 0).list, n.bound = true) ∧
    step s = .next t := by
  refine ⟨{ bench .running { planned 50 flown with followErr := 50 } with pending := [.outputPulse 0 {}] }, _,
    ?_, ?_, ?_, ?_, ?_, ?_, ?_, ?_, ?_, rfl⟩
  · decide +kernel
  · unfold State.onePlace
    decide +kernel
  · unfold State.withinBounds
    decide +kernel
  · unfold Axis.errOk
    decide +kernel
  · decide +kernel
  · unfold Axis.standingOk
    decide +kernel
  · unfold Axis.bindingOk
    decide +kernel
  · decide +kernel
  · decide +kernel

/-- A held cell is written; a cell that the walk visits is written. -/
theorem test_met_OnlyHeldCellsAreWritten : (∃ t, exec (.dwellEnd 0 {}) (bench .running (busy .dwell .running)) = .next t ∧
      (bench .running (busy .dwell .running)).onePlace ∧
      t.readByte 0x8C0 ≠ (bench .running (busy .dwell .running)).readByte 0x8C0) ∧
    (∃ t, exec (.cellVisit {}) (offer (bench .running idle) 6 0 0 0 0) = .next t ∧
      (offer (bench .running idle) 6 0 0 0 0).onePlace ∧
      t.readByte 0x9C0 ≠ (offer (bench .running idle) 6 0 0 0 0).readByte 0x9C0) := by
  refine ⟨⟨_, rfl, ?_⟩, ⟨_, rfl, ?_⟩⟩ <;> unfold State.onePlace <;> decide +kernel

end Sys2Proof.Tests
end

section
/-!
What the module writes into cells (1.2, R10, R151): for each write of a cell what it leaves of the state, which bytes
it touches and what is read back.
-/

open Sys2Proof Sys2Proof.Machine

namespace Sys2Proof.Machine

variable {s t : State} {n a : Nat} {b : Bool} {r : Result}

/-- A word is told by its bytes. -/
theorem readWord_congr (h : ∀ k, k < 4 → t.readByte (a + k) = s.readByte (a + k)) : t.readWord a = s.readWord a := by
  have h0 := h 0 (by omega)
  rw [Nat.add_zero] at h0
  unfold State.readWord
  rw [h 3 (by omega), h 2 (by omega), h 1 (by omega), h0]

/-! ### Fields that writes leave -/

/-- Two changes of memory alone are one. -/
theorem memOnly_trans {u : State} (h1 : t = { s with mem := t.mem }) (h2 : u = { t with mem := u.mem }) :
    u = { s with mem := u.mem } := h2.trans (by rw [h1])

theorem writeWords_eq : ∀ (ws : List (Nat × Word)) {s : State}, s.writeWords ws = { s with mem := (s.writeWords ws).mem }
  | [], _ => rfl
  | w :: ws, s => memOnly_trans (t := s.writeWord w.1 w.2) rfl (writeWords_eq ws)

theorem writeResult_eq : s.writeResult n r = { s with mem := (s.writeResult n r).mem } := writeWords_eq _

theorem writeCellState_eq (v : Byte) : s.writeCellState n v = { s with mem := (s.writeCellState n v).mem } := rfl

theorem writeReturnLink_eq (l : Nat) : s.writeReturnLink n l = { s with mem := (s.writeReturnLink n l).mem } := rfl

theorem writeAdmission_eq : s.writeAdmission n = { s with mem := (s.writeAdmission n).mem } :=
  memOnly_trans writeResult_eq (writeReturnLink_eq _)

/-- The link of the tail of the chain written, where there is one (R151). -/
def State.linkTail (s : State) (n : Nat) : State :=
  match s.chain.getLast? with
  | none => s
  | some tail => s.writeReturnLink tail n

theorem linkTail_eq : s.linkTail n = { s with mem := (s.linkTail n).mem } := by
  unfold State.linkTail
  split <;> rfl

/-- The memory of a cell linked. -/
theorem linkCell_mem : (s.linkCell n b).mem = ((s.writeReturnLink n noIndex).linkTail n).mem := by
  unfold State.linkCell State.linkTail
  dsimp only
  split <;> rfl

/-- A cell linked stands at the tail of the chain, and RETURN is set where it carries NOTIFY (R151). -/
theorem linkCell_eq : s.linkCell n b = { s with
    mem := (s.linkCell n b).mem, chain := s.chain ++ [n]
    causes := { s.causes with ret := s.causes.ret || b } } := by
  have h : s.linkCell n b =
      (if b then State.setReturnCause { (s.writeReturnLink n noIndex).linkTail n with chain := s.chain ++ [n] }
        else { (s.writeReturnLink n noIndex).linkTail n with chain := s.chain ++ [n] }) := by
    unfold State.linkCell State.linkTail
    dsimp only
    rcases hc : (s.writeReturnLink n noIndex).chain.getLast? with _ | tail <;> rfl
  rw [linkCell_mem, h, linkTail_eq, writeReturnLink_eq]
  cases b <;> simp [State.setReturnCause]

/-- A cell that ends: memory, the chain and the causes, and nothing else. -/
theorem endCell_eq : s.endCell n r b = { s with
    mem := (s.endCell n r b).mem, chain := s.chain ++ [n]
    causes := { s.causes with ret := s.causes.ret || b } } := by
  unfold State.endCell
  rw [linkCell_eq]
  rfl

/-- A cell that is refused: memory, the held marks, the chain and the causes. -/
theorem refuseCell_eq (c : RefusalCode) (d : Nat) : s.refuseCell n c d b = { s with
    mem := (s.refuseCell n c d b).mem, held := insertNat n s.held, chain := s.chain ++ [n]
    causes := { s.causes with ret := s.causes.ret || b } } := by
  unfold State.refuseCell
  rw [linkCell_eq]
  rfl

/-! ### Bytes that writes leave -/

theorem readByte_writeResult_other (h : ¬ (0x800 + 64 * n + 0x2C ≤ a ∧ a < 0x800 + 64 * n + 0x40)) :
    (s.writeResult n r).readByte a = s.readByte a := by
  simp only [State.writeResult, resultWords, State.writeWords, List.foldl_cons, List.foldl_nil, cellBase]
  repeat rw [readByte_writeWord_other (by omega)]

@[simp] theorem readByte_setHeld : (s.setHeld n).readByte a = s.readByte a := rfl

theorem readByte_writeCellState_other {v : Byte} (h : a ≠ 0x800 + 64 * n) :
    (s.writeCellState n v).readByte a = s.readByte a := readByte_writeByte_other h

theorem readByte_writeReturnLink_other {l : Nat} (h : ¬ (0x800 + 64 * n + 6 ≤ a ∧ a < 0x800 + 64 * n + 8)) :
    (s.writeReturnLink n l).readByte a = s.readByte a :=
  readByte_writeHalf_other (by unfold cellBase; omega)

theorem readByte_linkTail_other {m : Nat}
    (h : ¬ ∃ tail, s.chain.getLast? = some tail ∧ 0x800 + 64 * tail + 6 ≤ a ∧ a < 0x800 + 64 * tail + 8) :
    (s.linkTail m).readByte a = s.readByte a := by
  unfold State.linkTail
  split
  · rfl
  · rename_i tail ht
    exact readByte_writeReturnLink_other (fun k => h ⟨tail, ht, k⟩)

theorem readByte_linkCell : (s.linkCell n b).readByte a = ((s.writeReturnLink n noIndex).linkTail n).readByte a := by
  simp only [State.readByte, linkCell_mem]

/-- A cell linked: its own return link and that of the tail. -/
theorem readByte_linkCell_other (h1 : ¬ (0x800 + 64 * n + 6 ≤ a ∧ a < 0x800 + 64 * n + 8))
    (h2 : ¬ ∃ tail, s.chain.getLast? = some tail ∧ 0x800 + 64 * tail + 6 ≤ a ∧ a < 0x800 + 64 * tail + 8) :
    (s.linkCell n b).readByte a = s.readByte a := by
  rw [readByte_linkCell, readByte_linkTail_other (s := s.writeReturnLink n noIndex) h2, readByte_writeReturnLink_other h1]

/-- A cell that ends: its module part and the link of the tail. -/
theorem readByte_endCell_other (h : ¬ mayWrite s n a) : (s.endCell n r b).readByte a = s.readByte a := by
  simp only [mayWrite, inResultPart, not_or] at h
  obtain ⟨h1, ⟨h2, h3⟩, h4⟩ := h
  unfold State.endCell
  have hc : ((s.writeResult n r).writeCellState n endedByte).chain = s.chain := by rw [writeResult_eq]; rfl
  rw [readByte_linkCell_other h2 (by rwa [hc]), readByte_writeCellState_other h1, readByte_writeResult_other h3]

/-- A cell that is refused: its module part and the link of the tail. -/
theorem readByte_refuseCell_other {c : RefusalCode} {d : Nat} (h : ¬ mayWrite s n a) :
    (s.refuseCell n c d b).readByte a = s.readByte a := by
  simp only [mayWrite, inResultPart, not_or] at h
  obtain ⟨h1, ⟨h2, h3⟩, h4⟩ := h
  unfold State.refuseCell
  have hc : (((s.writeResult n { code := c.code, reason := d }).writeCellState n refusedByte).setHeld n).chain = s.chain := by
    rw [writeResult_eq]; rfl
  rw [readByte_linkCell_other h2 (by rwa [hc]), readByte_setHeld, readByte_writeCellState_other h1,
    readByte_writeResult_other h3]

/-- A cell that is admitted: its result part (R10). -/
theorem readByte_writeAdmission_other (h : ¬ inResultPart n a) : (s.writeAdmission n).readByte a = s.readByte a := by
  simp only [inResultPart, not_or] at h
  unfold State.writeAdmission
  rw [readByte_writeReturnLink_other h.1, readByte_writeResult_other h.2]

/-- The bytes that ending a cell may write are of the module's part of that cell or of one of the chain. -/
theorem inModulePart_of_mayWrite (h : mayWrite s n a) :
    ∃ m, (m ∈ s.chain ∨ m = n) ∧ inModulePart m a := by
  rcases h with h | h | ⟨tail, ht, h⟩
  · exact ⟨n, .inr rfl, .inl h⟩
  · exact ⟨n, .inr rfl, .inr h⟩
  · exact ⟨tail, .inl (List.mem_of_getLast? ht), .inr (.inl h)⟩

/-! ### What is read back -/

theorem memoryWf_writeResult (h : s.memoryWf = true) : (s.writeResult n r).memoryWf = true := memoryWf_writeWords h

theorem memoryWf_writeReturnLink {l : Nat} (h : s.memoryWf = true) : (s.writeReturnLink n l).memoryWf = true :=
  memoryWf_writeHalf h

theorem memoryWf_linkTail {m : Nat} (h : s.memoryWf = true) : (s.linkTail m).memoryWf = true := by
  unfold State.linkTail
  split
  · exact h
  · exact memoryWf_writeHalf h

theorem memoryWf_linkCell (h : s.memoryWf = true) : (s.linkCell n b).memoryWf = true := by
  unfold State.memoryWf
  rw [linkCell_mem]
  exact memoryWf_linkTail (memoryWf_writeReturnLink h)

theorem memoryWf_endCell (h : s.memoryWf = true) : (s.endCell n r b).memoryWf = true :=
  memoryWf_linkCell (memoryWf_writeByte (memoryWf_writeResult h))

/-- A result part written reads as given. -/
theorem writeResult_reads (h : s.memoryWf = true) (hn : n < 480) :
    (s.writeResult n r).readWord (0x800 + 64 * n + 0x2C) = r.codeWord ∧
    (s.writeResult n r).readWord (0x800 + 64 * n + 0x30) = BitVec.ofNat 32 r.fires ∧
    (s.writeResult n r).readWord (0x800 + 64 * n + 0x34) = r.cmd ∧
    (s.writeResult n r).readWord (0x800 + 64 * n + 0x38) = r.fb ∧
    (s.writeResult n r).readWord (0x800 + 64 * n + 0x3C) = BitVec.ofNat 32 r.elapsed := by
  simp only [State.writeResult, resultWords, State.writeWords, List.foldl_cons, List.foldl_nil, cellBase]
  have hb : ∀ o, o < 64 → 0x800 + 64 * n + o + 3 < Config.memSize + 3 := by unfold Config.memSize; omega
  refine ⟨?_, ?_, ?_, ?_, ?_⟩
  · repeat rw [readWord_writeWord_other (by omega)]
    exact readWord_writeWord_same h (by unfold Config.memSize; omega)
  · repeat rw [readWord_writeWord_other (by omega)]
    exact readWord_writeWord_same (memoryWf_writeWord h) (by unfold Config.memSize; omega)
  · repeat rw [readWord_writeWord_other (by omega)]
    exact readWord_writeWord_same (memoryWf_writeWord (memoryWf_writeWord h)) (by unfold Config.memSize; omega)
  · repeat rw [readWord_writeWord_other (by omega)]
    exact readWord_writeWord_same (memoryWf_writeWord (memoryWf_writeWord (memoryWf_writeWord h)))
      (by unfold Config.memSize; omega)
  · exact readWord_writeWord_same (memoryWf_writeWord (memoryWf_writeWord (memoryWf_writeWord (memoryWf_writeWord h))))
      (by unfold Config.memSize; omega)

theorem writeCellState_reads {v : Byte} (h : s.memoryWf = true) (hn : n < 480) :
    (s.writeCellState n v).readByte (0x800 + 64 * n) = v :=
  readByte_writeByte_same h (by unfold cellBase Config.memSize; omega)

/-- A return link of none reads FFFF Hex. -/
theorem writeReturnLink_reads (h : s.memoryWf = true) (hn : n < 480) :
    (s.writeReturnLink n noIndex).readByte (0x800 + 64 * n + 6) = 0xFF ∧
    (s.writeReturnLink n noIndex).readByte (0x800 + 64 * n + 7) = 0xFF :=
  ⟨readByte_writeHalf_low h (by unfold cellBase Config.memSize; omega),
    readByte_writeHalf_high h (by unfold cellBase Config.memSize; omega)⟩

/-- A cell that ended reads ENDED with its result part (R10). -/
theorem endCell_endReads (h : s.memoryWf = true) (hn : n < 480) :
    (s.endCell n r b).endReads n r.codeWord (BitVec.ofNat 32 r.fires) r.cmd r.fb (BitVec.ofNat 32 r.elapsed) := by
  obtain ⟨h1, h2, h3, h4, h5⟩ := writeResult_reads (r := r) h hn
  have hbyte : ∀ a, ¬ (0x800 + 64 * n + 6 ≤ a ∧ a < 0x800 + 64 * n + 8) → (0x800 + 64 * n ≤ a ∧ a < 0x800 + 64 * n + 64) →
      (s.endCell n r b).readByte a = ((s.writeResult n r).writeCellState n endedByte).readByte a := by
    intro a ha hr
    refine readByte_linkCell_other ha ?_
    rintro ⟨tail, -, ht⟩
    omega
  have hword : ∀ o, 0x2C ≤ o → o + 4 ≤ 64 →
      (s.endCell n r b).readWord (0x800 + 64 * n + o) = (s.writeResult n r).readWord (0x800 + 64 * n + o) := by
    intro o ho1 ho2
    refine readWord_congr (fun k hk => ?_)
    rw [hbyte _ (by omega) (by omega), readByte_writeCellState_other (by omega)]
  refine ⟨?_, ?_, ?_, ?_, ?_, ?_⟩
  · rw [hbyte _ (by omega) (by omega)]
    exact writeCellState_reads (memoryWf_writeResult h) hn
  · rw [hword _ (by omega) (by omega), h1]
  · rw [hword _ (by omega) (by omega), h2]
  · rw [hword _ (by omega) (by omega), h3]
  · rw [hword _ (by omega) (by omega), h4]
  · rw [hword _ (by omega) (by omega), h5]

/-- A cell linked that is not its own predecessor reads no return link. -/
theorem linkCell_link (h : s.memoryWf = true) (hn : n < 480) (ht : ∀ tail, s.chain.getLast? = some tail → tail ≠ n) :
    (s.linkCell n b).readByte (0x800 + 64 * n + 6) = 0xFF ∧ (s.linkCell n b).readByte (0x800 + 64 * n + 7) = 0xFF := by
  obtain ⟨h1, h2⟩ := writeReturnLink_reads h hn
  have hne : ∀ o, o = 6 ∨ o = 7 → ¬ ∃ tail, (s.writeReturnLink n noIndex).chain.getLast? = some tail ∧
      0x800 + 64 * tail + 6 ≤ 0x800 + 64 * n + o ∧ 0x800 + 64 * n + o < 0x800 + 64 * tail + 8 := by
    rintro o ho ⟨tail, hc, hk⟩
    exact ht tail hc (by omega)
  rw [readByte_linkCell, readByte_linkCell, readByte_linkTail_other (hne 6 (.inl rfl)),
    readByte_linkTail_other (hne 7 (.inr rfl))]
  exact ⟨h1, h2⟩

/-- The result part of a cell that ended, behind another cell of the chain (R10, R151). -/
theorem endCell_resultReads (h : s.memoryWf = true) (hn : n < 480)
    (ht : ∀ tail, s.chain.getLast? = some tail → tail ≠ n) :
    (s.endCell n r b).resultReads n r.codeWord (BitVec.ofNat 32 r.fires) r.cmd r.fb (BitVec.ofNat 32 r.elapsed) := by
  obtain ⟨-, h1, h2, h3, h4, h5⟩ := endCell_endReads (r := r) (b := b) h hn
  exact ⟨h1, h2, h3, h4, h5, linkCell_link (memoryWf_writeByte (memoryWf_writeResult h)) hn ht⟩

/-- The result part of a cell that is admitted is empty (R10). -/
theorem writeAdmission_reads (h : s.memoryWf = true) (hn : n < 480) : (s.writeAdmission n).resultReads n 0 0 0 0 0 := by
  obtain ⟨h1, h2, h3, h4, h5⟩ := writeResult_reads (r := { code := 0 }) h hn
  obtain ⟨h6, h7⟩ := writeReturnLink_reads (memoryWf_writeResult (r := { code := 0 }) h) hn
  have hword : ∀ o, 0x2C ≤ o → (s.writeAdmission n).readWord (0x800 + 64 * n + o)
      = (s.writeResult n { code := 0 }).readWord (0x800 + 64 * n + o) := by
    intro o ho
    exact readWord_congr (fun k hk => readByte_writeReturnLink_other (by omega))
  refine ⟨?_, ?_, ?_, ?_, ?_, h6, h7⟩
  · rw [hword _ (by omega), h1]; rfl
  · rw [hword _ (by omega), h2]; rfl
  · rw [hword _ (by omega), h3]
  · rw [hword _ (by omega), h4]
  · rw [hword _ (by omega), h5]; rfl

end Sys2Proof.Machine
end

section
/-!
Cells on their way (R4, R5, R6): `CellStep`, what every command but a reset, the self-test and the image refresh does
to the cells, and from it the statements on held cells.
-/

open Sys2Proof Sys2Proof.Machine

namespace Sys2Proof.Machine

/-- A step that moves cells between their places, takes on at most the cells of `new`, and writes only the module's
part of cells that were held before or are taken on (R2, R5, R6). -/
structure CellStep (new : List Nat) (s t : State) : Prop where
  onePlace : t.onePlace
  cells    : ∀ n ∈ t.cells, n ∈ s.cells ∨ n ∈ new
  mem      : ∀ a, t.readByte a ≠ s.readByte a → ∃ n, (n ∈ s.cells ∨ n ∈ new) ∧ inModulePart n a

variable {p : Keep} {new : List Nat} {s t x y : State} {ax : AxisIx} {r : Race}

/-! ### One place -/

/-- What is in one place is told by the cells and the held marks alone. -/
theorem onePlace_of_same (hs : s.onePlace) (hc : t.cells = s.cells) (hh : t.held = s.held) : t.onePlace := by
  unfold State.onePlace
  rw [hc, hh]
  exact hs

/-- No two watches stand in one cell. -/
theorem watches_nodup (hs : s.onePlace) : (s.watches.map (·.cell)).Nodup := by
  have h : (s.watches.map (·.cell)).Sublist s.cells := by
    unfold State.cells
    exact ((List.sublist_append_right _ _).trans (List.sublist_append_left _ s.chain))
  exact h.nodup hs.1

/-- The cells are told by the lists, the table and the chain. -/
theorem cells_of_same (h1 : ∀ ax, cellsOf (t.axis ax).list = cellsOf (s.axis ax).list)
    (h2 : t.watches.map (·.cell) = s.watches.map (·.cell)) (h3 : t.chain = s.chain) : t.cells = s.cells := by
  unfold cellsOf at h1
  simp only [State.cells, h1, h2, h3]

/-- An update of an axis that keeps the cells of its list keeps the cells. -/
theorem cells_updAxis {f : Axis → Axis} (h : cellsOf (f (x.axis ax)).list = cellsOf (x.axis ax).list) :
    (x.updAxis ax f).cells = x.cells := by
  refine cells_of_same (fun j => ?_) rfl rfl
  by_cases k : j = ax
  · subst k; rw [axis_updAxis_same, h]
  · rw [axis_updAxis_other _ _ k]

/-! ### Steps of cells -/

theorem CellStep.of_same (hs : s.onePlace) (hc : t.cells = s.cells) (hh : t.held = s.held) (hm : t.mem = s.mem) :
    CellStep new s t where
  onePlace := onePlace_of_same hs hc hh
  cells := fun n hn => Or.inl (hc ▸ hn)
  mem := fun a ha => absurd (by simp only [State.readByte, hm]) ha

theorem CellStep.refl (hs : s.onePlace) : CellStep new s s := .of_same hs rfl rfl rfl

/-- What stays within a frame moves no cell out of its places. -/
theorem CellStep.of_frame (hs : s.onePlace) (h : Frame p [] s t) : CellStep new s t := by
  have hc : ∀ n, t.cells.count n = s.cells.count n := fun n => by simpa using h.cells n
  have hm : ∀ n, n ∈ t.cells ↔ n ∈ s.cells := fun n => by
    rw [← List.count_pos_iff, ← List.count_pos_iff, hc]
  have hh : t.held = s.held := by
    have := h.fixed
    simp only [State.fixed, Prod.mk.injEq] at this
    exact this.2.2.2.2.2.2.2.2.2.2.2.1
  obtain ⟨h1, h2, h3⟩ := hs
  refine ⟨⟨?_, ?_, ?_⟩, fun n hn => Or.inl ((hm n).1 hn), fun a ha => ?_⟩
  · rw [List.nodup_iff_count_le_one] at h1 ⊢
    exact fun n => hc n ▸ h1 n
  · exact fun n hn => hh ▸ h2 n ((hm n).1 hn)
  · exact fun n hn => (hm n).2 (h3 n (hh ▸ hn))
  · obtain ⟨n, hn, ha⟩ := h.mem a ha
    exact ⟨n, Or.inl (List.count_pos_iff.1 hn), ha⟩

theorem CellStep.trans (h : CellStep new s x) (h' : CellStep new x y) : CellStep new s y where
  onePlace := h'.onePlace
  cells := fun n hn => (h'.cells n hn).elim (h.cells n) .inr
  mem := fun a ha => by
    by_cases e : y.readByte a = x.readByte a
    · exact h.mem a (e ▸ ha)
    · obtain ⟨n, hn, hp⟩ := h'.mem a e
      exact ⟨n, hn.elim (h.cells n) .inr, hp⟩

/-- A step that takes on nothing is one that may. -/
theorem CellStep.weaken (h : CellStep [] s t) : CellStep new s t where
  onePlace := h.onePlace
  cells := fun n hn => (h.cells n hn).elim .inl (fun k => by cases k)
  mem := fun a ha => by
    obtain ⟨n, hn, hp⟩ := h.mem a ha
    exact ⟨n, hn.elim .inl (fun k => by cases k), hp⟩

/-- Steps one after another. -/
theorem CellStep.foldl {α : Type} {f : State → α → State}
    (hf : ∀ (a : α) {x : State}, x.onePlace → CellStep new x (f x a)) :
    ∀ (l : List α) {x : State}, CellStep new s x → CellStep new s (l.foldl f x)
  | [], _, h => h
  | a :: l, _, h => CellStep.foldl hf l (h.trans (hf a h.onePlace))

/-! ### What follows an event -/

@[simp] theorem enter_cells (m : ModState) : (s.enter m).cells = s.cells := by cases m <;> rfl
@[simp] theorem enter_held (m : ModState) : (s.enter m).held = s.held := by cases m <;> rfl
@[simp] theorem enter_mem (m : ModState) : (s.enter m).mem = s.mem := by cases m <;> rfl

theorem cellStep_enter (hs : s.onePlace) (m : ModState) : CellStep new s (s.enter m) :=
  .of_same hs (enter_cells m) (enter_held m) (enter_mem m)

theorem cellStep_stopIfAtRest (hs : s.onePlace) : CellStep new s s.stopIfAtRest := by
  unfold State.stopIfAtRest
  split
  · exact cellStep_enter hs _
  · exact .refl hs

theorem cellStep_finish (hs : s.onePlace) : CellStep new s (s.finish r) := by
  have hf : CellStep new s (s.followUp r) := .of_frame hs (frame_followUp (Frame.refl _ s) (watches_nodup hs))
  exact hf.trans (cellStep_stopIfAtRest hf.onePlace)

theorem activity_eq : s.activity = { s with supTimer := s.activity.supTimer } := by
  unfold State.activity State.loadSupervision
  split <;> rfl

/-- A COLLECT read between two linkings. -/
theorem cellStep_detachInside (hs : s.onePlace) (n : Nat) : CellStep new s ((s.endLinkAt n).detach n) where
  onePlace := onePlace_detach hs
  cells := fun k hk => Or.inl (List.count_pos_iff.1 (by
    have := count_cells_detach (s := s) n k
    have := List.count_pos_iff.2 hk
    omega))
  mem := fun a ha => by
    obtain ⟨c, hc, hp⟩ := readByte_detach ha
    exact ⟨c, Or.inl (List.mem_append_right _ hc), hp⟩

/-- An event is closed by steps of cells. -/
theorem CellStep.close (h : CellStep new s t) : CellStep new s (x.close r t) :=
  close_induct (CellStep new s) (h.trans (cellStep_finish h.onePlace))
    (fun _ n hx _ => hx.trans (cellStep_detachInside hx.onePlace n))

/-- A read of COLLECT. -/
theorem cellStep_detach (hs : s.onePlace) (n : Nat) : CellStep new s (s.detach n) := by
  have h := cellStep_detachInside (new := new) hs n
  have hd : ∀ m : List Host.Cell, ({ s with mem := m } : State).detach n = { s.detach n with mem := m } := by
    intro m
    unfold State.detach State.activity State.loadSupervision
    dsimp only
    split <;> rfl
  have he : (s.endLinkAt n).detach n = { s.detach n with mem := (s.endLinkAt n).mem } := by
    rw [endLinkAt_fixed, hd]
  rw [he] at h
  refine ⟨h.onePlace, h.cells, fun a ha => absurd ?_ ha⟩
  have hm : (s.detach n).mem = s.mem := by
    unfold State.detach State.activity State.loadSupervision
    dsimp only
    split <;> rfl
  simp only [State.readByte, hm]

/-! ### Control orders -/

/-- A carried request moves cells as a step does. -/
def Carried.CellStep (s : State) : Carried → Prop
  | .done t => Machine.CellStep [] s t
  | .refused _ _ => True

theorem Carried.CellStep.of_framed {c : Carried} (hs : s.onePlace) (h : c.Framed p [] s) : c.CellStep s := by
  cases c
  · exact .of_frame hs h
  · trivial

/-- The watch found in a cell is one of the table. -/
theorem cellStep_cancelWatch (hs : s.onePlace) (n : Nat) : (s.cancelWatch n).CellStep s := by
  unfold State.cancelWatch
  split
  · rename_i w hw
    exact CellStep.of_frame (p := ⟨true, false⟩) hs
      (frame_endWatch (Frame.refl _ s) (watches_nodup hs) (mem_of_watchOf hw))
  · trivial

theorem cellStep_removeFault (hs : s.onePlace) (sc : Scope) : CellStep new s (s.removeFault sc) :=
  .of_same hs rfl rfl rfl

theorem cellStep_clearAxisFault (hs : s.onePlace) : (s.clearAxisFault ax).CellStep s := by
  unfold State.clearAxisFault
  have h := cellStep_removeFault (new := []) hs (.axis ax)
  dsimp only
  repeat' split
  · trivial
  · trivial
  · trivial
  · exact h.trans (.of_frame (p := ⟨true, true⟩) h.onePlace (frame_setAxisState (Frame.refl _ _)))
  · exact h

theorem cellStep_clearModuleFault (hs : s.onePlace) : s.clearModuleFault.CellStep s := by
  unfold State.clearModuleFault
  have h := cellStep_removeFault (new := []) hs .module
  dsimp only
  repeat' split
  · trivial
  · exact (h.trans (cellStep_enter h.onePlace .running)).trans
      (.of_same (cellStep_enter (new := []) h.onePlace .running).onePlace rfl rfl rfl)
  · exact h

/-- What a control order does to the cells in its owning block (R39). -/
theorem cellStep_carryOut (hs : s.onePlace) (k : ControlKind) (sc : Scope) (q : Params) :
    (s.carryOut k sc q).CellStep s := by
  have fr : Frame ⟨false, true⟩ [] s s := Frame.refl _ s
  unfold State.carryOut
  split
  · exact .of_framed hs (framed_stopAxis fr)
  · exact .of_framed hs (framed_hold fr)
  · exact .of_framed hs (framed_resume fr)
  · exact .of_framed hs (framed_advance fr)
  · exact CellStep.of_frame hs (frame_setOverride fr)
  · exact .of_framed hs (framed_setPosition fr)
  · exact cellStep_clearAxisFault hs
  · exact CellStep.of_frame hs (frame_openGate fr)
  · exact CellStep.of_frame hs (frame_setGate fr)
  · exact cellStep_cancelWatch hs _
  · exact cellStep_clearModuleFault hs
  all_goals trivial

/-! ### Visits -/

theorem mem_insertNat {n m : Nat} : ∀ {l : List Nat}, m ∈ insertNat n l ↔ m = n ∨ m ∈ l
  | [] => by simp [insertNat]
  | x :: xs => by
      unfold insertNat
      split
      · simp
      · split
        · rename_i h; subst h; simp
        · rw [List.mem_cons, mem_insertNat, List.mem_cons]; tauto

theorem mem_setHeld {n m : Nat} : m ∈ (s.setHeld n).held ↔ m = n ∨ m ∈ s.held := mem_insertNat

/-- A cell taken on: it was in no place and is in one, and its module part is written. -/
theorem CellStep.take {n : Nat} (hs : s.onePlace) (hn : n ∉ s.held)
    (hc : ∀ m, t.cells.count m = s.cells.count m + [n].count m) (hh : ∀ m, m ∈ t.held ↔ m = n ∨ m ∈ s.held)
    (hm : ∀ a, t.readByte a ≠ s.readByte a → ∃ m, (m ∈ s.cells ∨ m ∈ [n]) ∧ inModulePart m a) :
    CellStep [n] s t := by
  obtain ⟨h1, h2, h3⟩ := hs
  have hz : s.cells.count n = 0 := List.count_eq_zero.2 (fun k => hn (h2 n k))
  have hone := List.nodup_iff_count_le_one.1 h1
  have hin : ∀ m, m ∈ t.cells ↔ m = n ∨ m ∈ s.cells := fun m => by
    rw [← List.count_pos_iff, hc, ← List.count_pos_iff, List.count_singleton]
    by_cases e : m = n
    · simp [e]
    · simp [e, Ne.symm e]
  refine ⟨⟨List.nodup_iff_count_le_one.2 fun m => ?_, fun m k => ?_, fun m k => ?_⟩, fun m k => ?_, hm⟩
  · rw [hc, List.count_singleton]
    by_cases e : n = m
    · subst e; simp [hz]
    · simpa [e] using hone m
  · exact (hh m).2 (((hin m).1 k).imp_right (h2 m))
  · exact (hin m).2 (((hh m).1 k).imp_right (h3 m))
  · simpa [or_comm] using (hin m).1 k

/-- The same for a cell that is written but for its place and mark. -/
theorem cells_appendList (s : State) (ax : AxisIx) (e : Entry) (m : Nat) :
    (s.updAxis ax (fun a => { a with list := a.list ++ [e] })).cells.count m = s.cells.count m + [e.cell].count m := by
  have h := count_cells_setAxis s ax { s.axis ax with list := (s.axis ax).list ++ [e] } m
  simp only [cellsOf, List.map_append, List.map_cons, List.map_nil, List.count_append] at h
  show (s.setAxis ax { s.axis ax with list := (s.axis ax).list ++ [e] }).cells.count m = _
  simp only [List.count_cons, List.count_nil] at h ⊢
  omega

/-- The cell of a visit that is admitted, but for its entry. -/
def State.admitCell (s : State) (n : Nat) (b : Byte) : State := ((s.writeAdmission n).writeCellState n b).setHeld n

theorem admitCell_eq (n : Nat) (b : Byte) : s.admitCell n b =
    { s with mem := (s.admitCell n b).mem, held := insertNat n s.held } := by
  have h : (s.writeAdmission n).writeCellState n b
      = { s with mem := ((s.writeAdmission n).writeCellState n b).mem } :=
    memOnly_trans writeAdmission_eq (writeCellState_eq b)
  unfold State.admitCell
  rw [h]
  rfl

/-- An admitted cell is written in its module part alone (R2, R10). -/
theorem writesOnly_admitCell (n : Nat) (b : Byte) : s.writesOnly (s.admitCell n b) n := by
  intro a ha
  simp only [inModulePart, not_or] at ha
  unfold State.admitCell
  rw [readByte_setHeld, readByte_writeCellState_other ha.1, readByte_writeAdmission_other ha.2]

theorem readByte_of_mem (h : t.mem = x.mem) (a : Nat) : t.readByte a = x.readByte a := by
  simp only [State.readByte, h]

theorem CellStep.of_writesOnly {n : Nat} (h : s.writesOnly x n) (hm : t.mem = x.mem) (a : Nat)
    (ha : t.readByte a ≠ s.readByte a) : ∃ m, (m ∈ s.cells ∨ m ∈ [n]) ∧ inModulePart m a :=
  ⟨n, .inr (List.mem_singleton.2 rfl), Classical.byContradiction fun k => ha ((readByte_of_mem hm a).trans (h a k))⟩

theorem cellStep_admitMotion {n : Nat} (hs : s.onePlace) (hn : n ∉ s.held) (k : MotionKind) (c : CellWords) :
    CellStep [n] s (s.admitMotion n k ax c) := by
  have h1 : CellStep [n] s ((s.admitCell n admittedByte).updAxis ax
      (fun a => { a with list := a.list ++ [entryOf n k c] })) := by
    refine .take hs hn (fun m => ?_) (fun m => ?_) (CellStep.of_writesOnly (writesOnly_admitCell n admittedByte) rfl)
    · rw [cells_appendList, admitCell_eq]; rfl
    · rw [updAxis_held, admitCell_eq]; exact mem_insertNat
  exact h1.trans (.of_frame (p := ⟨true, true⟩) h1.onePlace (frame_settle (Frame.refl _ _)))

/-- A watch armed, as an update of the state with its cell admitted. -/
theorem armed_eq (n : Nat) (c : CellWords) : s.arm n c = { s.admitCell n armedByte with
    watches := s.watches ++ [{ watchFrom n c with truth := s.watchHolds (watchFrom n c) }] } := by
  have h : s.arm n c = { s.admitCell n armedByte with
      watches := (s.admitCell n armedByte).watches ++
        [{ watchFrom n c with truth := (s.admitCell n armedByte).watchHolds (watchFrom n c) }] } := rfl
  rw [h, admitCell_eq]
  rfl

theorem cellStep_arm {n : Nat} (hs : s.onePlace) (hn : n ∉ s.held) (c : CellWords) : CellStep [n] s (s.arm n c) := by
  rw [armed_eq]
  refine .take hs hn (fun m => ?_) (fun m => ?_) (CellStep.of_writesOnly (writesOnly_admitCell n armedByte) rfl)
  · rw [admitCell_eq, count_cells, count_cells]
    simp only [State.axis, watchFrom, List.map_append, List.count_append, List.map_cons, List.map_nil]
    omega
  · rw [admitCell_eq]; exact mem_insertNat

/-- Bytes that ending or refusing a cell changes. -/
theorem CellStep.of_mayWrite {n : Nat} (h : ∀ a, ¬ mayWrite s n a → t.readByte a = s.readByte a) (a : Nat)
    (ha : t.readByte a ≠ s.readByte a) : ∃ m, (m ∈ s.cells ∨ m ∈ [n]) ∧ inModulePart m a := by
  obtain ⟨m, hm, hp⟩ := inModulePart_of_mayWrite (Classical.byContradiction fun k => ha (h a k))
  exact ⟨m, hm.imp (List.mem_append_right _) List.mem_singleton.2, hp⟩

/-- The cells with one more at the tail of the chain. -/
theorem cells_append_chain (n : Nat) (h1 : t.axes = s.axes) (h2 : t.watches = s.watches) (h3 : t.chain = s.chain ++ [n])
    (m : Nat) : t.cells.count m = s.cells.count m + [n].count m := by
  have : t.cells = s.cells ++ [n] := by
    simp only [State.cells, State.axis, h1, h2, h3, List.append_assoc]
  rw [this, List.count_append]

theorem cellStep_refuseCell {n d : Nat} {b : Bool} (hs : s.onePlace) (hn : n ∉ s.held) (c : RefusalCode) :
    CellStep [n] s (s.refuseCell n c d b) := by
  refine .take hs hn (cells_append_chain n ?_ ?_ ?_) (fun m => ?_)
    (CellStep.of_mayWrite fun a => readByte_refuseCell_other)
  all_goals rw [refuseCell_eq]
  exact mem_insertNat

theorem cellStep_endControl {n : Nat} {q : Result} {b : Bool} (hs : s.onePlace) (hn : n ∉ s.held) :
    CellStep [n] s ((s.setHeld n).endCell n q b) := by
  refine .take hs hn (cells_append_chain n ?_ ?_ ?_) (fun m => ?_)
    (CellStep.of_mayWrite fun a h => readByte_endCell_other (s := s.setHeld n) h)
  all_goals rw [endCell_eq]
  any_goals rfl
  exact mem_setHeld

/-- A control order carried out moves cells as its owning block does. -/
theorem cellStep_of_verdict_done (hs : s.onePlace) {m : Quad Bool} {c : CellWords} {sc : Scope}
    (h : s.verdict m c = .done sc t) : CellStep [] s t := by
  unfold State.verdict at h
  split at h
  · cases h
  · cases h
  · split at h
    · cases h
    · split at h
      · cases h
      · split at h
        · cases h
        · cases h
        · cases h
        · rename_i q _ _ _
          have hq := cellStep_carryOut hs q sc c.params
          split at h
          · rename_i hd
            cases h
            rw [hd] at hq
            exact hq
          · cases h

/-- What a visit does to the cells: it may take on the one it is at (R36 to R39). -/
theorem cellStep_applyVerdict {n : Nat} {w : Walk} {c : CellWords} {m : Quad Bool} (hs : s.onePlace)
    (hn : n ∉ s.held) : CellStep [n] s (s.applyVerdict w n c (s.verdict m c)) := by
  have hw : ∀ {u : State} {v : Option Walk}, CellStep [n] s u → CellStep [n] s { u with walk := v } := fun h =>
    h.trans (.of_same h.onePlace rfl rfl rfl)
  unfold State.applyVerdict
  split
  · exact hw (cellStep_refuseCell hs hn _)
  · exact hw (cellStep_admitMotion hs hn _ _)
  · exact hw (cellStep_arm hs hn _)
  · rename_i sc s' hv
    have h := cellStep_of_verdict_done hs hv
    have hn' : n ∉ s'.held := fun k => hn (hs.2.1 n ((h.cells n (h.onePlace.2.2 n k)).elim id (fun e => by cases e)))
    exact hw (h.weaken.trans (cellStep_endControl h.onePlace hn'))

/-- A walk that does not end is at a cell that it may read (R26). -/
theorem offeredAt_of_endsAt {w : Walk} (hw : s.walk = some w) (h : s.endsAt w.at_ = none) : s.offeredAt w := by
  unfold State.endsAt at h
  split at h
  · cases h
  · split at h
    · cases h
    · split at h
      · cases h
      · rename_i h1 h2 h3
        simp only [Bool.or_eq_true, bne_iff_ne, ne_eq, not_or, Decidable.not_not, State.isHeld,
          List.contains_eq_mem, decide_eq_true_eq] at h3
        exact ⟨hw, Nat.lt_of_not_le h2, h3.1, h3.2⟩

theorem cellStep_visit {w : Walk} (hs : s.onePlace) (hw : s.walk = some w) :
    ∃ l, (∀ n ∈ l, s.offeredAt w ∧ w.at_ = n) ∧ CellStep l s (s.visit w) := by
  have hv : ∀ {l : List Nat} {u : State}, CellStep l s u → CellStep l s { u with visitRead := [] } := fun h =>
    h.trans (.of_same h.onePlace rfl rfl rfl)
  unfold State.visit
  split
  · exact ⟨[], by simp, hv (.of_same hs rfl rfl rfl)⟩
  · rename_i he
    have ho := offeredAt_of_endsAt hw he
    exact ⟨[w.at_], by simp [ho], hv (cellStep_applyVerdict hs ho.2.2.1)⟩

end Sys2Proof.Machine
end

section
/-!
What every command does to the cells (R2, R4, R5, R6): each command but a reset, the self-test and the image refresh
is a `CellStep`; the statements on held cells follow.
-/

open Sys2Proof Sys2Proof.Machine

namespace Sys2Proof.Machine

variable {new : List Nat} {s t : State} {ax : AxisIx} {r : Race}

/-- A step of cells within the frame that leaves positions open. -/
theorem CellStep.of_frame' (hs : s.onePlace) (h : Frame ⟨false, false⟩ [] s t) : CellStep new s t := .of_frame hs h

/-! ### The register window -/

theorem cellStep_activity (hs : s.onePlace) : CellStep new s s.activity := by
  rw [activity_eq]
  exact .of_same hs rfl rfl rfl

theorem cellStep_noteControl (hs : s.onePlace) (code arg : Byte) (o : CtlOutcome) :
    CellStep new s (s.noteControl code arg o) :=
  CellStep.trans (x := { s with readback := s.readback.next code arg o }) (.of_same hs rfl rfl rfl)
    (cellStep_activity (onePlace_of_same hs rfl rfl))

theorem cellStep_takePost (hs : s.onePlace) (v : Word) : CellStep new s (s.takePost v) := by
  unfold State.takePost
  dsimp only
  split
  · exact .refl hs
  · split
    · exact CellStep.trans (x := { s with postQueue := s.postQueue ++ [v.extractLsb' 0 16] }) (.of_same hs rfl rfl rfl)
        (cellStep_activity (onePlace_of_same hs rfl rfl))
    · have h : CellStep new s (s.recordFault .module faultPostOverrun (v.extractLsb' 0 16).toNat noIndex) :=
        .of_frame' hs (frame_recordFault (Frame.refl _ s))
      exact h.trans (cellStep_activity h.onePlace)

/-- An update of each axis that keeps the cells of its list keeps the cells. -/
theorem cells_mapAxes {f : Axis → Axis} (hf : ∀ a, cellsOf (f a).list = cellsOf a.list)
    (h1 : t.axes = s.axes.map f) (h2 : t.watches.map (·.cell) = s.watches.map (·.cell)) (h3 : t.chain = s.chain) :
    t.cells = s.cells :=
  cells_of_same (fun ax => by simp only [State.axis, h1, Quad.get_map, hf]) h2 h3

theorem cellStep_beginStart (hs : s.onePlace) : CellStep new s s.beginStart :=
  .of_same hs
    (cells_mapAxes (f := fun a => { a with prof := { a.prof with override := 100 } }) (fun _ => rfl) rfl rfl rfl) rfl rfl

theorem cellStep_takeStart (hs : s.onePlace) (arg : Byte) : CellStep new s (s.takeStart arg) := by
  unfold State.takeStart
  have h := cellStep_noteControl (new := new) hs codeStart arg (ctlOutcome (s.modState == .stopped))
  dsimp only
  split
  · exact h.trans (cellStep_beginStart h.onePlace)
  · exact h

theorem cellStep_stopBlock (b : StopBlock) {x : State} (hx : x.onePlace) : CellStep new x (x.stopBlock b) := by
  cases b with
  | watchUnit =>
      have h : CellStep new x x.cancelAll := .of_frame' hx (frame_cancelAll (Frame.refl _ x) (watches_nodup hx))
      exact h.trans (.of_same h.onePlace rfl rfl rfl)
  | sequencer ax => exact .of_frame' hx (frame_moduleStopAxis (Frame.refl _ x))

theorem cellStep_beginStopping (hs : s.onePlace) : CellStep new s (s.beginStopping r) := by
  unfold State.beginStopping
  have h := cellStep_enter (new := new) hs .stopping
  exact CellStep.foldl cellStep_stopBlock _ (h.trans (.of_same h.onePlace rfl rfl rfl))

theorem cellStep_takeStop (hs : s.onePlace) (arg : Byte) : CellStep new s (s.takeStop arg r) := by
  unfold State.takeStop
  have h := cellStep_noteControl (new := new) hs codeStop arg
    (ctlOutcome (s.modState == .running || s.modState == .silent))
  dsimp only
  split
  · exact h.trans (cellStep_beginStopping h.onePlace).close
  · exact h

theorem cellStep_takeAck (hs : s.onePlace) (named : Byte) : CellStep new s (s.takeAck named) := by
  unfold State.takeAck
  have h := cellStep_noteControl (new := new) hs codeAck named (ctlOutcome s.modState.takesAck)
  dsimp only
  split
  · exact h.trans (.of_same h.onePlace rfl rfl rfl)
  · exact h

theorem cellStep_controlWrite (hs : s.onePlace) {code : Byte} (h : code ≠ 3) (arg : Byte) :
    CellStep new s (s.controlWrite code arg) := by
  unfold State.controlWrite
  split
  · exact cellStep_takeStart hs _
  split
  · exact cellStep_takeStop hs _
  split
  · exact absurd ‹_› h
  split
  · exact cellStep_takeAck hs _
  split
  · exact cellStep_noteControl hs _ _ _
  · exact cellStep_noteControl hs _ _ _

/-! ### The setup check, supervision and the millisecond -/

theorem startUnder_list (a : Axis) (st : AxisSetup) : (a.startUnder st).list = a.list := by
  unfold Axis.startUnder
  split <;> rfl

theorem cellStep_passSetup (hs : s.onePlace) : CellStep new s s.passSetup := by
  refine .of_same hs (cells_of_same (fun ax => ?_) rfl rfl) rfl rfl
  fin_cases ax <;> exact congrArg cellsOf (startUnder_list _ _)

theorem cellStep_checkAxes (hs : s.onePlace) (l : List AxisIx) : CellStep new s (s.checkAxes l) := by
  unfold State.checkAxes
  exact .of_frame' hs (frame_foldl (fun _ _ h => frame_addChecks (frame_report h)) l (Frame.refl _ s))

theorem cellStep_goSilent (hs : s.onePlace) (l : List AxisIx) : CellStep new s (s.goSilent l) := by
  unfold State.goSilent
  have h1 : CellStep new s (s.recordFault .module faultSupervision 0 noIndex) :=
    .of_frame' hs (frame_recordFault (Frame.refl _ s))
  have h2 := h1.trans (CellStep.of_same (t := { s.recordFault .module faultSupervision 0 noIndex with supTimer := none })
    h1.onePlace rfl rfl rfl)
  exact CellStep.foldl (fun ax x hx => .of_frame' hx (frame_silenceAxis (Frame.refl _ x))) l
    (h2.trans (cellStep_enter h2.onePlace .silent))

theorem tick_cell (e : Entry) (b : Bool) : (e.tick b).cell = e.cell := by
  unfold Entry.tick
  split <;> rfl

theorem watchTick_cell (w : Watch) : w.tick.cell = w.cell := by
  unfold Watch.tick
  dsimp only
  split <;> rfl

theorem tick_cellsOf (a : Axis) : cellsOf a.tick.list = cellsOf a.list := by
  unfold Axis.tick cellsOf
  dsimp only
  cases a.list with
  | nil => rfl
  | cons e es => simp only [List.map_cons, tick_cell]

theorem cellStep_tick (hs : s.onePlace) : CellStep new s s.tick := by
  unfold State.tick
  split
  · exact .refl hs
  · refine .of_same hs (cells_mapAxes tick_cellsOf rfl ?_ rfl) rfl rfl
    simp only [List.map_map]
    exact List.map_congr_left (fun w _ => watchTick_cell w)

/-! ### Pulses, edges and inputs -/

/-- An update of an axis that keeps its list. -/
theorem cellStep_updAxis {f : Axis → Axis} (hs : s.onePlace) (h : ∀ a, (f a).list = a.list) :
    CellStep new s (s.updAxis ax f) :=
  .of_same hs (cells_updAxis (congrArg cellsOf (h _))) rfl rfl

theorem cellStep_report (hs : s.onePlace) (q : Quantity) (v : Sample) : CellStep new s (s.report q v) :=
  .of_same hs rfl rfl rfl

theorem cellStep_addJobs (hs : s.onePlace) (js : List Job) : CellStep new s (s.addJobs js) :=
  .of_same hs rfl rfl rfl

theorem cellStep_recomputeError (hs : s.onePlace) : CellStep new s (s.recomputeError ax) := by
  unfold State.recomputeError
  have h := cellStep_updAxis (new := new) (ax := ax) (f := fun a =>
    { a with followErr := followErrorOf a.setup a.commanded a.feedback }) hs (fun _ => rfl)
  exact h.trans (cellStep_report h.onePlace _ _)

theorem cellStep_moveCommanded (hs : s.onePlace) (v : Word) : CellStep new s (s.moveCommanded ax v) := by
  unfold State.moveCommanded
  have h := cellStep_updAxis (new := new) (ax := ax) (f := fun a => { a with commanded := v }) hs (fun _ => rfl)
  have h' := h.trans (cellStep_report h.onePlace (.commandedPos ax) (.value v.toInt))
  exact h'.trans (cellStep_recomputeError h'.onePlace)

theorem cellStep_moveFeedback (hs : s.onePlace) (v : Word) : CellStep new s (s.moveFeedback ax v) := by
  unfold State.moveFeedback
  have h := cellStep_updAxis (new := new) (ax := ax) (f := fun a => { a with feedback := v }) hs (fun _ => rfl)
  have h' := h.trans (cellStep_report h.onePlace (.feedbackPos ax) (.value v.toInt))
  exact h'.trans (cellStep_recomputeError h'.onePlace)

theorem cellStep_setSpeed (hs : s.onePlace) (sq : Nat) (ac : Int) (ph : RampPhase) :
    CellStep new s (s.setSpeed ax sq ac ph) := by
  unfold State.setSpeed
  have h := cellStep_updAxis (new := new) (ax := ax) (f := fun a =>
    { a with prof := { a.prof with speedSq := sq, accel := ac, phase := ph } }) hs (fun _ => rfl)
  dsimp only
  split
  · exact h
  · exact h.trans (cellStep_report h.onePlace _ _)

theorem cellStep_followPlan (hs : s.onePlace) : CellStep new s (s.followPlan ax) := by
  unfold State.followPlan
  dsimp only
  split
  · exact .refl hs
  · exact cellStep_setSpeed hs _ _ _

theorem cellStep_pulse (hs : s.onePlace) : CellStep new s (s.pulse ax) := by
  unfold State.pulse
  have h1 := cellStep_updAxis (new := new) (ax := ax) (f := Axis.countPulse) hs (fun _ => rfl)
  have h2 := h1.trans (cellStep_moveCommanded (ax := ax) h1.onePlace (wordOfInt (s.axis ax).nextCommanded))
  have h3 := h2.trans (cellStep_followPlan (ax := ax) h2.onePlace)
  have h4 := h3.trans (cellStep_addJobs h3.onePlace [.progress ax])
  exact h4.trans (cellStep_addJobs h4.onePlace _)

theorem cellStep_encoder (hs : s.onePlace) (a b : Bool) : CellStep new s (s.encoder ax a b) := by
  unfold State.encoder
  have h := cellStep_updAxis (new := new) (ax := ax) (f := fun x => { x with encA := a, encB := b }) hs (fun _ => rfl)
  dsimp only
  split
  · exact h
  · have h2 := CellStep.foldl (f := fun s d => s.countEdge ax d) (fun _ _ hx => cellStep_moveFeedback hx _)
      (encoderCounts (s.axis ax).setup.encMode (s.axis ax).encA (s.axis ax).encB a b) h
    exact h2.trans (cellStep_addJobs h2.onePlace _)

theorem cellStep_setInputs (hs : s.onePlace) (i : Inputs) : CellStep new s (s.setInputs ax i r) := by
  unfold State.setInputs
  split
  · exact .refl hs
  · have h := cellStep_updAxis (new := new) (ax := ax) (f := fun a => { a with inputs := i }) hs (fun _ => rfl)
    exact (h.trans (.of_frame' h.onePlace (frame_addChecks (frame_settle (frame_refInput (Frame.refl _ _)))))).close

theorem cellStep_setEvent (hs : s.onePlace) (i : Fin 4) (b : Bool) : CellStep new s (s.setEvent i b) :=
  .of_same hs rfl rfl rfl

/-! ### Timers -/

theorem cellStep_fire {w : Watch} (hs : s.onePlace) (hw : w.cell ∈ s.watches.map (·.cell)) : CellStep new s (s.fire w) :=
  .of_frame' hs (frame_fire (Frame.refl _ s) (watches_nodup hs) hw)

theorem watchOf_of_elapsedDue {n : Nat} {w : Watch} (h : s.elapsedDue n = some w) : s.watchOf n = some w := by
  unfold State.elapsedDue at h
  split at h
  · cases h
  · rename_i v hv
    split at h
    · cases h; exact hv
    · cases h

theorem cellStep_endClearPulse (hs : s.onePlace) : CellStep new s (s.endClearPulse ax) := by
  unfold State.endClearPulse
  have h : Frame ⟨false, false⟩ [] s
      (s.updRef ax (fun r => { r with clearTimer := none, clearOut := false })) := frame_updRef (Frame.refl _ s)
  dsimp only
  repeat' split
  · exact .of_frame' hs (frame_settle (frame_beginOffset h))
  · exact .of_frame' hs h
  · exact .of_frame' hs h

/-! ### Every command -/

/-- What a command may do beyond a step of cells: to write the memory outside of cells, by a reset, the self-test or
the image refresh. -/
def writesBeyondCells : Instr → Bool
  | .powerOn | .rackResetLine | .selfTestPass | .selfTestFail | .imageRefresh | .reset _ _ => true
  | .unknownCommand code _ => code == 3
  | .ignoredRegisterWrite offset _ => offset == 8
  | .postWrite _ | .collect | .start _ | .stop _ _ | .ack _ | .kick _ | .setupCheckPass _ | .setupCheckFail
  | .walkBegin | .cellVisit _ | .outputPulse _ _ | .moduleStopComplete | .encoderEdge _ _ _ _
  | .limitInputChange _ _ _ _ | .referenceSwitchChange _ _ _ | .indexInputChange _ _ _ | .driveReadyChange _ _ _
  | .driveAlarmChange _ _ _ | .eventInputChange _ _ _ | .moduleClockTick _ | .elapsedReached _ _
  | .deadlineExpiry _ _ | .dwellEnd _ _ | .pauseExpiry _ _ | .clearPulseExpiry _ _ | .triggerPulseExpiry _
  | .supervisionExpiry _ => false

/-- Every other command is a step of cells that takes on at most the cell the walk visits. -/
theorem cellStep_exec (c : Instr) (hs : s.onePlace) (hc : writesBeyondCells c = false) (h : exec c s = .next t) :
    ∃ l, (∀ n ∈ l, ∃ w, s.offeredAt w ∧ w.at_ = n) ∧ CellStep l s t := by
  have none_new : CellStep [] s t → ∃ l, (∀ n ∈ l, ∃ w, s.offeredAt w ∧ w.at_ = n) ∧ CellStep l s t :=
    fun k => ⟨[], by simp, k⟩
  cases c with
  | powerOn | rackResetLine | selfTestPass | selfTestFail | imageRefresh | reset => cases hc
  | postWrite v => cases h; exact none_new (cellStep_takePost hs v)
  | collect => cases h; exact none_new (cellStep_detach hs _)
  | start arg => cases h; exact none_new (cellStep_takeStart hs arg)
  | stop arg r => cases h; exact none_new (cellStep_takeStop hs arg)
  | ack a => cases h; exact none_new (cellStep_takeAck hs a)
  | kick a => cases h; exact none_new (cellStep_noteControl hs _ _ _)
  | unknownCommand code arg => cases h; exact none_new (cellStep_controlWrite hs (by simpa [writesBeyondCells] using hc) arg)
  | ignoredRegisterWrite o v =>
      cases h
      apply none_new
      rw [writesBeyondCells, beq_eq_false_iff_ne] at hc
      split
      · exact cellStep_takePost hs v
      · exact .refl hs
  | setupCheckPass r =>
      cases h
      apply none_new
      split
      · have h1 := cellStep_passSetup (new := []) hs
        exact (h1.trans (cellStep_checkAxes h1.onePlace _)).close
      · exact .refl hs
  | setupCheckFail =>
      cases h
      apply none_new
      repeat' split
      · rename_i d _
        have h1 : CellStep [] s (s.recordFault .module faultSetup d noIndex) :=
          .of_frame' hs (frame_recordFault (Frame.refl _ s))
        have h2 := h1.trans (CellStep.of_same (t := { s.recordFault .module faultSetup d noIndex with setupRead := [] })
          h1.onePlace rfl rfl rfl)
        exact h2.trans (cellStep_enter h2.onePlace .stopped)
      · exact .refl hs
      · exact .refl hs
  | walkBegin =>
      cases h
      apply none_new
      unfold State.beginWalk
      split
      · exact .of_same hs rfl rfl rfl
      · exact .refl hs
      · exact .refl hs
  | cellVisit r =>
      cases h
      cases hw : s.walk with
      | none => exact ⟨[], by simp, .refl hs⟩
      | some w =>
          obtain ⟨l, hl, hv⟩ := cellStep_visit hs hw
          exact ⟨l, fun n hn => ⟨w, hl n hn⟩, hv.close⟩
  | outputPulse ax r =>
      cases h
      apply none_new
      split
      · exact (cellStep_pulse hs).close
      · exact .refl hs
  | moduleStopComplete => cases h; exact none_new (cellStep_stopIfAtRest hs)
  | encoderEdge ax a b r => cases h; exact none_new (cellStep_encoder hs a b).close
  | limitInputChange ax sd l r => cases h; exact none_new (cellStep_setInputs hs _)
  | referenceSwitchChange ax l r => cases h; exact none_new (cellStep_setInputs hs _)
  | indexInputChange ax l r => cases h; exact none_new (cellStep_setInputs hs _)
  | driveReadyChange ax l r => cases h; exact none_new (cellStep_setInputs hs _)
  | driveAlarmChange ax l r => cases h; exact none_new (cellStep_setInputs hs _)
  | eventInputChange i l r =>
      cases h
      apply none_new
      split
      · exact .refl hs
      · exact (cellStep_setEvent hs i l).close
  | moduleClockTick r =>
      cases h
      apply none_new
      split
      · exact .refl hs
      · exact (cellStep_tick hs).close
  | elapsedReached n r =>
      cases h
      apply none_new
      split
      · rename_i w hw
        exact (cellStep_fire hs (mem_of_watchOf (watchOf_of_elapsedDue hw))).close
      · exact .refl hs
  | deadlineExpiry ax r =>
      cases h
      apply none_new
      repeat' split
      · exact (CellStep.of_frame' hs (frame_axisFault (Frame.refl _ s))).close
      · exact .refl hs
      · exact .refl hs
  | dwellEnd ax r =>
      cases h
      apply none_new
      split
      · exact (CellStep.of_frame' hs (frame_settle (frame_finishHead (Frame.refl _ s)))).close
      · exact .refl hs
  | pauseExpiry ax r =>
      cases h
      apply none_new
      repeat' split
      · exact (CellStep.of_frame' hs (frame_settle (frame_beginPhase (Frame.refl _ s)))).close
      · exact .refl hs
      · exact .refl hs
  | clearPulseExpiry ax r =>
      cases h
      apply none_new
      split
      · exact (cellStep_endClearPulse hs).close
      · exact .refl hs
  | triggerPulseExpiry o =>
      cases h
      apply none_new
      split
      · exact .of_same hs rfl rfl rfl
      · exact .refl hs
  | supervisionExpiry r =>
      cases h
      apply none_new
      split
      · exact (cellStep_goSilent hs _).close
      · exact .refl hs

/-! ### Resets, the self-test, the refresh -/

/-- After a reset no cell is held. -/
theorem onePlace_resetWith (x : Extent) (rb : Readback) : (s.resetWith x rb).onePlace := by
  have h : (s.resetWith x rb).cells = [] := by
    have hl : ∀ ax, ((s.resetWith x rb).axis ax).list = [] := fun ax => by fin_cases ax <;> rfl
    simp only [State.cells, hl]
    rfl
  unfold State.onePlace
  rw [h]
  exact ⟨List.nodup_nil, by simp, fun n hn => by cases hn⟩

theorem onePlace_prepareMemory (hs : s.onePlace) : s.prepareMemory.onePlace := by
  rw [prepareMemory_fields]
  exact onePlace_of_same hs rfl rfl

theorem onePlace_controlWrite (hs : s.onePlace) (code arg : Byte) : (s.controlWrite code arg).onePlace := by
  by_cases h : code = 3
  · subst h
    exact onePlace_resetWith _ _
  · exact (cellStep_controlWrite (new := []) hs h arg).onePlace

/-- Every command keeps each held cell in one place. -/
theorem onePlace_exec (c : Instr) (hs : s.onePlace) (h : exec c s = .next t) : t.onePlace := by
  cases hc : writesBeyondCells c with
  | false =>
      obtain ⟨l, -, hl⟩ := cellStep_exec c hs hc h
      exact hl.onePlace
  | true =>
      cases c with
      | powerOn => cases h; exact onePlace_resetWith _ _
      | rackResetLine => cases h; exact onePlace_resetWith _ _
      | reset arg n => cases h; exact onePlace_resetWith _ _
      | selfTestPass =>
          cases h
          split
          · exact (cellStep_enter (new := []) (onePlace_prepareMemory hs) _).onePlace
          · exact hs
      | selfTestFail =>
          cases h
          split
          · have h1 : CellStep [] s.prepareMemory (s.prepareMemory.recordFault .module faultMemoryCheck 0 noIndex) :=
              .of_frame' (onePlace_prepareMemory hs) (frame_recordFault (Frame.refl _ _))
            exact (cellStep_enter (new := []) h1.onePlace .halted).onePlace
          · exact hs
      | imageRefresh =>
          cases h
          unfold State.refresh
          split
          · exact hs
          · rw [writeWords_eq]
            exact onePlace_of_same hs rfl rfl
      | unknownCommand code arg => cases h; exact onePlace_controlWrite hs _ _
      | ignoredRegisterWrite o v =>
          cases h
          repeat' split
          · exact (cellStep_takePost (new := []) hs v).onePlace
          · exact onePlace_controlWrite hs _ _
          · exact hs
      | _ => cases hc

/-! ### Backplane writes -/

theorem onePlace_shadowSetup (hs : s.onePlace) (b : BusWrite) : (s.shadowSetup b).onePlace := by
  rcases shadowSetup_cases s b with ⟨h, -⟩ | ⟨h, -⟩ <;> rw [h]
  · exact hs
  · exact onePlace_of_same hs rfl rfl

theorem onePlace_shadowVisit (hs : s.onePlace) (b : BusWrite) : (s.shadowVisit b).onePlace := by
  rcases shadowVisit_cases s b with ⟨h, -⟩ | ⟨h, -⟩ <;> rw [h]
  · exact hs
  · exact onePlace_of_same hs rfl rfl

theorem onePlace_prepareBefore (hs : s.onePlace) (b : BusWrite) : (s.prepareBefore b).onePlace := by
  unfold State.prepareBefore
  split
  · exact onePlace_prepareMemory hs
  · exact hs

theorem onePlace_busWrite (b : BusWrite) (hs : s.onePlace) (h : busWrite b s = .next t) : t.onePlace := by
  unfold busWrite at h
  split at h
  · cases h
    exact onePlace_of_same (onePlace_shadowVisit (onePlace_shadowSetup (onePlace_prepareBefore hs b) b) b) rfl rfl
  · cases h

/-- Settles O53: every command is a step of cells or a reset, and a backplane write moves none. -/
theorem cellsStayInOnePlace : Obligations.CellsStayInOnePlace := by
  intro s t hs h
  unfold step at h
  split at h
  · refine onePlace_exec _ ?_ h
    exact onePlace_of_same hs rfl rfl
  · split at h
    · refine onePlace_busWrite _ ?_ h
      exact onePlace_of_same hs rfl rfl
    · cases h; exact hs

/-- Settles O59: of a step of cells, the bytes changed are of the module's part of cells held before or taken on. -/
theorem onlyHeldCellsAreWritten : Obligations.OnlyHeldCellsAreWritten := by
  intro c s t hs h h1 h2 h3 h4 h5 h6 h7 h8 a ha
  have hc : writesBeyondCells c = false := by
    cases c with
    | unknownCommand code arg => exact beq_eq_false_iff_ne.2 (fun e => h7 arg (e ▸ rfl))
    | ignoredRegisterWrite o v => exact beq_eq_false_iff_ne.2 (fun e => h8 v (e ▸ rfl))
    | reset arg n => exact absurd rfl (h6 arg n)
    | powerOn | rackResetLine | selfTestPass | selfTestFail | imageRefresh => contradiction
    | _ => rfl
  obtain ⟨l, hl, hstep⟩ := cellStep_exec c hs hc h
  obtain ⟨n, hn, hp⟩ := hstep.mem a ha
  exact ⟨n, hn.imp (hs.2.1 n) (hl n), hp⟩

end Sys2Proof.Machine
end

section
/-!
Kinds, scopes and parameter ranges of cells (R11 to R16), and the invariants right after reset.
-/

open Sys2Proof Sys2Proof.Machine

namespace Sys2Proof.Machine

/-! ### After reset -/

theorem reset_axis (ax : AxisIx) : State.reset.axis ax = {} := by fin_cases ax <;> rfl

theorem reset_cells : State.reset.cells = [] := by
  simp only [State.cells, reset_axis]
  rfl

/-- Settles O60: after reset every list, queue and table is empty and every axis is at its defaults. -/
theorem invariantsHoldAtReset : Obligations.InvariantsHoldAtReset := by
  refine ⟨rfl, ?_, ?_, fun ax => ?_, (fun h => by cases h), fun ax => ?_, fun ax => ?_⟩
  · unfold State.onePlace
    rw [reset_cells]
    exact ⟨List.nodup_nil, by simp, fun n hn => by cases hn⟩
  · refine ⟨by decide, by decide, fun ax _ => ?_, List.nodup_nil⟩
    rw [reset_axis]
    decide
  · rw [reset_axis]
    show (0 : Word) = followErrorOf {} 0 0
    decide
  · rw [reset_axis]
    exact fun _ => ⟨rfl, rfl⟩
  · rw [reset_axis]
    exact ⟨by simp, by simp⟩

/-! ### Kinds and scopes (R11) -/

theorem kindOfCode_range {k : Nat} (h : (kindOfCode k).isSome = true) :
    (1 ≤ k ∧ k ≤ 5) ∨ k = 0x10 ∨ (0x20 ≤ k ∧ k ≤ 0x29) := by
  unfold kindOfCode at h
  split at h
  all_goals first | omega | cases h

theorem scopeOfCode_range {n : Nat} (h : (scopeOfCode n).isSome = true) : n ≤ 3 ∨ n = 0xFF := by
  unfold scopeOfCode at h
  split at h
  all_goals first | omega | cases h

theorem verdict_badKind {s : State} {m : Quad Bool} {c : CellWords} (h : kindOfCode c.kindCode = none) :
    s.verdict m c = .refused .badKind 0 none := by
  unfold State.verdict
  rw [h]

theorem verdict_badScope {s : State} {m : Quad Bool} {c : CellWords} {k : Kind} (hk : kindOfCode c.kindCode = some k)
    (h : ∀ sc, scopeOfCode c.scopeCode = some sc → k.permits sc = false) :
    s.verdict m c = .refused .badScope 0 none := by
  unfold State.verdict
  rw [hk]
  cases hs : scopeOfCode c.scopeCode with
  | none => rfl
  | some sc => simp [h sc hs]

/-- Settles O17: the two tables of codes, the permitted scopes kind by kind, and the refusals of a verdict. -/
theorem kindsAndScopes : Obligations.KindsAndScopes := by
  refine ⟨by decide, fun _ => kindOfCode_range, fun ax => by fin_cases ax <;> rfl, rfl, fun _ => scopeOfCode_range,
    fun _ _ => ⟨rfl, rfl⟩, fun _ => rfl, rfl, fun q ax => ?_, fun s m c => ⟨verdict_badKind, fun k => verdict_badScope⟩⟩
  cases q <;> simp [Kind.permits]

/-! ### Ranges (R12 to R16) -/

theorem firstOutOfRange_nil : firstOutOfRange [] = none := rfl

/-- The first check decides, or the rest. -/
theorem firstOutOfRange_cons (n : Nat) (b : Bool) (l : List (Nat × Bool)) :
    firstOutOfRange ((n, b) :: l) = if b = true then firstOutOfRange l else some n := by
  cases b <;> simp [firstOutOfRange]

theorem inRange_iff (w : Word) (lo hi : Nat) : inRange w lo hi = true ↔ lo ≤ w.toNat ∧ w.toNat ≤ hi := by
  simp [inRange]

theorem rateOk_iff (w : Word) : rateOk w = true ↔ w = 0 ∨ (10 ≤ w.toNat ∧ w.toNat ≤ 20000000) := by
  simp [rateOk, inRange_iff]

theorem jerkOk_iff (w : Word) : jerkOk w = true ↔ w = 0 ∨ (100 ≤ w.toNat ∧ w.toNat ≤ 2000000000) := by
  simp [jerkOk, inRange_iff]

/-- What the gate number and the deadline of a motion order say, where its parameters pass (R12, R16). -/
def lateCheck (c : CellWords) : Option Nat :=
  if c.options.gated = true ∧ 16 ≤ c.gateNumber then some 8
  else if c.options.deadline = true ∧ c.deadline = 0 then some 9 else none

theorem deadline_le (c : CellWords) : c.deadline ≤ 65535 := by
  have := (c.timing.extractLsb' 0 16).isLt
  unfold CellWords.deadline
  omega

theorem optionChecks_motion (m : MotionKind) (c : CellWords) :
    firstOutOfRange (optionChecks (.motion m) c) = lateCheck c := by
  have := deadline_le c
  simp only [optionChecks, firstOutOfRange_cons, firstOutOfRange_nil, lateCheck, Bool.or_eq_true, Bool.and_eq_true,
    Bool.not_eq_true', decide_eq_true_eq]
  cases c.options.gated <;> cases c.options.deadline <;> simp <;> (repeat' split) <;> first | rfl | omega

theorem firstOutOfRange_append (l l' : List (Nat × Bool)) :
    firstOutOfRange (l ++ l') = match firstOutOfRange l with | some n => some n | none => firstOutOfRange l' := by
  induction l with
  | nil => rfl
  | cons x l ih =>
      obtain ⟨n, b⟩ := x
      rw [List.cons_append, firstOutOfRange_cons, firstOutOfRange_cons, ih]
      cases b <;> rfl

/-- The judgement of a motion order: its parameters, then gate number and deadline. -/
theorem rangeCheck_motion (floor top : Nat) (m : MotionKind) (c : CellWords) :
    rangeCheck floor top (.motion m) c =
      match firstOutOfRange (paramChecks floor top (.motion m) c.params) with
      | some n => some n
      | none => lateCheck c := by
  unfold rangeCheck
  rw [firstOutOfRange_append, optionChecks_motion]

/-- The judgement of another order: its parameters. -/
theorem rangeCheck_other (floor top : Nat) (k : Kind) (c : CellWords) (h : ∀ m, k ≠ .motion m) :
    rangeCheck floor top k c = firstOutOfRange (paramChecks floor top k c.params) := by
  cases k with
  | motion m => exact absurd rfl (h m)
  | armWatch | control => simp [rangeCheck, optionChecks]

theorem paramChecks_module (floor top : Nat) (k : Kind) (p : Params) (h : ∀ m, k ≠ .motion m) :
    paramChecks 0 0 k p = paramChecks floor top k p := by
  cases k with
  | motion m => exact absurd rfl (h m)
  | armWatch => rfl
  | control q => cases q <;> rfl

/-- The ranges of a move or JOG, as one chain (R12). -/
theorem rangeCheck_moves (floor top : Nat) (m : MotionKind) (c : CellWords) (hm : m = .moveAbs ∨ m = .moveRel ∨ m = .jog) :
    rangeCheck floor top (.motion m) c =
      if m = .jog ∧ 1 < c.params.p1.toNat then some 1
      else if c.params.p2.toNat < floor ∨ top < c.params.p2.toNat then some 2
      else if c.params.p3 ≠ 0 ∧ (c.params.p3.toNat < 10 ∨ 20000000 < c.params.p3.toNat) then some 3
      else if c.params.p4 ≠ 0 ∧ (c.params.p4.toNat < 10 ∨ 20000000 < c.params.p4.toNat) then some 4
      else if c.params.p5 ≠ 0 ∧ (c.params.p5.toNat < 100 ∨ 2000000000 < c.params.p5.toNat) then some 5
      else lateCheck c := by
  rw [rangeCheck_motion]
  have hs : firstOutOfRange (speedChecks floor top c.params) =
      if c.params.p2.toNat < floor ∨ top < c.params.p2.toNat then some 2
      else if c.params.p3 ≠ 0 ∧ (c.params.p3.toNat < 10 ∨ 20000000 < c.params.p3.toNat) then some 3
      else if c.params.p4 ≠ 0 ∧ (c.params.p4.toNat < 10 ∨ 20000000 < c.params.p4.toNat) then some 4
      else if c.params.p5 ≠ 0 ∧ (c.params.p5.toNat < 100 ∨ 2000000000 < c.params.p5.toNat) then some 5
      else none := by
    simp only [speedChecks, firstOutOfRange_cons, firstOutOfRange_nil, inRange_iff, rateOk_iff, jerkOk_iff]
    grind
  have hj : firstOutOfRange (paramChecks floor top (.motion m) c.params) =
      if m = .jog ∧ 1 < c.params.p1.toNat then some 1 else firstOutOfRange (speedChecks floor top c.params) := by
    rcases hm with rfl | rfl | rfl
    · rfl
    · rfl
    · simp only [paramChecks, firstOutOfRange_cons, inRange_iff]
      grind
  rw [hj, hs]
  grind

theorem rangeCheck_dwell (floor top : Nat) (c : CellWords) :
    rangeCheck floor top (.motion .dwell) c = if 60000 < c.params.p1.toNat then some 1 else lateCheck c := by
  rw [rangeCheck_motion]
  simp only [paramChecks, firstOutOfRange_cons, firstOutOfRange_nil, inRange_iff]
  grind

theorem rangeCheck_reference (floor top : Nat) (c : CellWords) :
    rangeCheck floor top (.motion .reference) c =
      if 1 < c.params.p1.toNat then some 1
      else if c.params.p2.toNat < floor ∨ top < c.params.p2.toNat then some 2
      else if c.params.p3.toNat < 1 ∨ floor < c.params.p3.toNat then some 3
      else if 1 < c.params.p4.toNat then some 4
      else if 1000 < (c.params.p5.extractLsb' 0 16).toNat ∨ 1 < (c.params.p5.extractLsb' 16 16).toNat then some 5
      else if 100 < (c.params.p7.extractLsb' 24 8).toNat then some 7 else lateCheck c := by
  rw [rangeCheck_motion]
  simp only [paramChecks, firstOutOfRange_cons, firstOutOfRange_nil, inRange_iff, Params.pause, Params.indexUse,
    Params.clearWidth, Bool.and_eq_true]
  grind

/-- The ranges of an ARM_WATCH hang on its quantity and its action (R14). -/
theorem rangeCheck_armWatch (floor top : Nat) (c : CellWords) :
    rangeCheck floor top .armWatch c =
      if c.params.p1.toNat < 1 ∨ 6 < c.params.p1.toNat then some 1
      else if c.params.p1.toNat ≠ 6 ∧ 3 < c.params.p2.toNat then some 2
      else if c.params.p1.toNat ≠ 5 ∧ (c.params.p3.toNat < 1 ∨ 4 < c.params.p3.toNat ∨
          (c.params.p3.toNat = 4 ∧ c.params.p1.toNat ≠ 1 ∧ c.params.p1.toNat ≠ 2)) then some 3
      else if c.params.p5.toNat < 1 ∨ 7 < c.params.p5.toNat then some 5
      else if (c.params.p5.toNat = 1 ∧ 15 < c.params.actionTarget) ∨
          (2 ≤ c.params.p5.toNat ∧ c.params.p5.toNat ≤ 6 ∧ 3 < c.params.actionTarget) then some 6
      else if (c.params.p5.toNat = 5 ∧ (c.params.p7.toNat < 1 ∨ 400000 < c.params.p7.toNat)) ∨
          (c.params.p5.toNat = 6 ∧ (c.params.p7.toNat < 1 ∨ 1000 < c.params.p7.toNat)) then some 7
      else none := by
  rw [rangeCheck_other _ _ _ _ (by simp)]
  have h6 : (if c.params.p5.toNat == 1 then decide (c.params.actionTarget < 16)
      else if c.params.p5.toNat == 7 then true else decide (c.params.actionTarget < 4)) = true ↔
      (if c.params.p5.toNat = 1 then c.params.actionTarget < 16 else c.params.p5.toNat = 7 ∨ c.params.actionTarget < 4) := by
    simp only [beq_iff_eq]
    split_ifs <;> simp [*]
  have h7 : (if c.params.p5.toNat == 5 then inRange c.params.p7 1 400000
      else if c.params.p5.toNat == 6 then inRange c.params.p7 1 1000 else true) = true ↔
      (c.params.p5.toNat = 5 → 1 ≤ c.params.p7.toNat ∧ c.params.p7.toNat ≤ 400000) ∧
        (c.params.p5.toNat = 6 → 1 ≤ c.params.p7.toNat ∧ c.params.p7.toNat ≤ 1000) := by
    simp only [beq_iff_eq]
    split_ifs <;> simp [inRange_iff, *]
  simp only [paramChecks, watchChecks, firstOutOfRange_cons, firstOutOfRange_nil]
  simp only [h6, h7]
  simp only [inRange_iff, Bool.or_eq_true, Bool.and_eq_true, beq_iff_eq, bne_iff_ne]
  grind (splits := 20)

/-- The ranges of the control orders (R15). -/
theorem rangeCheck_control (floor top : Nat) (c : CellWords) :
    rangeCheck floor top (.control .stopAxis) c = (if 1 < c.params.p1.toNat then some 1 else none) ∧
    rangeCheck floor top (.control .override) c =
      (if c.params.p1.toNat < 1 ∨ 200 < c.params.p1.toNat then some 1 else none) ∧
    (∀ k, k = .openGate ∨ k = .closeGate →
      rangeCheck floor top (.control k) c = if 15 < c.params.p1.toNat then some 1 else none) ∧
    rangeCheck floor top (.control .cancelWatch) c = (if 479 < c.params.p1.toNat then some 1 else none) ∧
    (∀ k, k = .hold ∨ k = .resume ∨ k = .advance ∨ k = .setPosition ∨ k = .clearFault →
      rangeCheck floor top (.control k) c = none) := by
  have hr : ∀ q, rangeCheck floor top (.control q) c = firstOutOfRange (paramChecks floor top (.control q) c.params) :=
    fun q => rangeCheck_other _ _ _ _ (by simp)
  simp only [hr]
  refine ⟨?_, ?_, ?_, ?_, ?_⟩
  · simp only [paramChecks, firstOutOfRange_cons, firstOutOfRange_nil, inRange_iff]
    grind
  · simp only [paramChecks, firstOutOfRange_cons, firstOutOfRange_nil, inRange_iff]
    grind
  · rintro k (rfl | rfl) <;> simp only [paramChecks, firstOutOfRange_cons, firstOutOfRange_nil, inRange_iff] <;> grind
  · simp only [paramChecks, firstOutOfRange_cons, firstOutOfRange_nil, inRange_iff]
    grind
  · rintro k (rfl | rfl | rfl | rfl | rfl) <;> rfl

/-- Settles O19: the chain of ranges kind by kind. -/
theorem moveParametersJudged : Obligations.MoveParametersJudged := by
  refine ⟨fun s k c => ⟨fun _ => rfl, fun floor top h => ?_⟩, fun floor top m c hm => ?_, fun floor top c late hl => ?_,
    fun floor top c q a target hq ha ht => ?_, rangeCheck_control⟩
  · show rangeCheck 0 0 k c = _
    rw [rangeCheck_other _ _ _ _ h, rangeCheck_other _ _ _ _ h, paramChecks_module floor top k _ h]
  · rw [rangeCheck_moves floor top m c hm]
    unfold lateCheck
    grind (splits := 20)
  · rw [rangeCheck_dwell, rangeCheck_reference, hl]
    exact ⟨rfl, rfl⟩
  · subst hq ha ht
    exact rangeCheck_armWatch floor top c

end Sys2Proof.Machine
end

section
/-!
A step without a command (R188; logs 2, 3, 17, 24): what a backplane write leaves of the state it meets, and the
records of the setup check and of the visit in progress.
-/

open Sys2Proof Sys2Proof.Machine

namespace Sys2Proof.Machine

/-- A backplane write served, behind what comes before it during POWER_UP. -/
def State.served (v : State) (b : BusWrite) : State :=
  ((v.shadowSetup b).shadowVisit b).writeWord b.offset b.value

variable {v : State} {b : BusWrite} {a : Nat}

theorem shadowSetup_eq : v.shadowSetup b = { v with setupRead := (v.shadowSetup b).setupRead } := by
  unfold State.shadowSetup
  split <;> rfl

theorem shadowVisit_eq : v.shadowVisit b = { v with visitRead := (v.shadowVisit b).visitRead } := by
  unfold State.shadowVisit
  split <;> rfl

/-- A write served changes memory and the two records of words read. -/
theorem served_eq : v.served b = { v with
    mem := (v.served b).mem, setupRead := (v.shadowSetup b).setupRead, visitRead := (v.shadowVisit b).visitRead } := by
  have h1 : (v.shadowSetup b).shadowVisit b = { v with
      setupRead := (v.shadowSetup b).setupRead, visitRead := (v.shadowVisit b).visitRead } := by
    rw [shadowVisit_eq, shadowSetup_eq]
    unfold State.shadowVisit
    split <;> rename_i h
    · rw [if_pos (by exact h)]; rfl
    · rw [if_neg (by exact h)]
  unfold State.served
  rw [h1]
  rfl

theorem served_mem : (v.served b).mem = (v.writeWord b.offset b.value).mem := by
  unfold State.served
  rw [shadowVisit_eq, shadowSetup_eq]
  rfl

theorem served_readByte : (v.served b).readByte a = (v.writeWord b.offset b.value).readByte a := by
  simp only [State.readByte, served_mem]

theorem served_readWord : (v.served b).readWord a = (v.writeWord b.offset b.value).readWord a :=
  readWord_congr fun _ _ => served_readByte

/-- The word stored is read back. -/
theorem served_readWord_same (h : v.memoryWf = true) (h4 : b.offset % 4 = 0) (hb : b.offset < 0x8000) :
    (v.served b).readWord b.offset = b.value := by
  rw [served_readWord, readWord_writeWord_same h (by unfold Config.memSize; omega)]

/-- Every other aligned word is read as before. -/
theorem served_readWord_other (h4 : b.offset % 4 = 0) (ha : a % 4 = 0) (hne : a ≠ b.offset) :
    (v.served b).readWord a = v.readWord a := by
  rw [served_readWord, readWord_writeWord_other (by omega)]

/-- The check keeps a word that it has passed. -/
theorem shadowSetup_pos (h : v.modState = .starting) (hf : setupField b.offset = true)
    (hp : b.late = true ∨ v.checkPassed b.offset = true) :
    (v.shadowSetup b).setupRead = v.setupRead ++ [(b.offset, v.setupWord b.offset)] := by
  rcases shadowSetup_cases v b with ⟨-, k⟩ | ⟨k, -⟩
  · exact absurd ⟨h, hf, hp⟩ k
  · rw [k]

/-- The check reads a word not yet passed as written. -/
theorem shadowSetup_neg
    (h : ¬ (v.modState = .starting ∧ setupField b.offset = true ∧ (b.late = true ∨ v.checkPassed b.offset = true))) :
    (v.shadowSetup b).setupRead = v.setupRead := by
  rcases shadowSetup_cases v b with ⟨k, -⟩ | ⟨-, k⟩
  · rw [k]
  · exact absurd k h

theorem shadowVisit_pos (h : v.inVisit b.offset = true) (hp : b.late = true ∨ v.visitPassed b.offset = true) :
    (v.shadowVisit b).visitRead = v.visitRead ++ [(b.offset, v.visitWord b.offset)] := by
  rcases shadowVisit_cases v b with ⟨-, k⟩ | ⟨k, -⟩
  · exact absurd ⟨h, hp⟩ k
  · rw [k]

theorem shadowVisit_neg (h : ¬ (v.inVisit b.offset = true ∧ (b.late = true ∨ v.visitPassed b.offset = true))) :
    (v.shadowVisit b).visitRead = v.visitRead := by
  rcases shadowVisit_cases v b with ⟨k, -⟩ | ⟨-, k⟩
  · rw [k]
  · exact absurd k h

/-- A word on record is read without memory. -/
theorem wordSeen_recorded (t : State) (seen : List (Nat × Word)) (a : Nat) :
    t.wordSeen (seen ++ [(a, v.wordSeen seen a)]) a = v.wordSeen seen a := by
  unfold State.wordSeen
  rw [List.find?_append]
  cases h : seen.find? (fun r => r.1 == a) <;> simp

/-- A word off record is read in memory. -/
theorem wordSeen_unrecorded {t : State} {seen : List (Nat × Word)} {a : Nat} (h : ∀ x ∈ seen, x.1 ≠ a) :
    t.wordSeen seen a = t.readWord a := by
  unfold State.wordSeen
  rw [List.find?_eq_none.2 (fun x hx => by simpa using h x hx)]

theorem wordSeen_congr {t : State} {seen : List (Nat × Word)} {a : Nat} (h : t.readWord a = v.readWord a) :
    t.wordSeen seen a = v.wordSeen seen a := by
  unfold State.wordSeen
  rw [h]

theorem served_setupWord : (v.served b).setupWord a = (v.served b).wordSeen (v.shadowSetup b).setupRead a := by
  unfold State.setupWord
  conv_lhs => arg 2; rw [served_eq]

theorem served_visitWord : (v.served b).visitWord a = (v.served b).wordSeen (v.shadowVisit b).visitRead a := by
  unfold State.visitWord
  conv_lhs => arg 2; rw [served_eq]

/-- Every other setup word is read as before. -/
theorem served_setupWord_other (h4 : b.offset % 4 = 0) (ha : a % 4 = 0) (hne : a ≠ b.offset) :
    (v.served b).setupWord a = v.setupWord a := by
  rw [served_setupWord]
  have hr := served_readWord_other (v := v) (b := b) h4 ha hne
  rcases shadowSetup_cases v b with ⟨k, -⟩ | ⟨k, -⟩ <;> rw [k]
  · exact wordSeen_congr hr
  · rw [wordSeen_append_other _ _ _ _ _ hne]
    exact wordSeen_congr hr

/-- Every other word of the cell of the visit is read as before. -/
theorem served_visitWord_other (h4 : b.offset % 4 = 0) (ha : a % 4 = 0) (hne : a ≠ b.offset) :
    (v.served b).visitWord a = v.visitWord a := by
  rw [served_visitWord]
  have hr := served_readWord_other (v := v) (b := b) h4 ha hne
  rcases shadowVisit_cases v b with ⟨k, -⟩ | ⟨k, -⟩ <;> rw [k]
  · exact wordSeen_congr hr
  · rw [wordSeen_append_other _ _ _ _ _ hne]
    exact wordSeen_congr hr

/-- The setup check in progress (R181; log 24). -/
theorem served_check (hw : v.memoryWf = true) (h4 : b.offset % 4 = 0) (hb : b.offset < 0x8000)
    (hm : v.modState = .starting) (hf : setupField b.offset = true) :
    (b.late = true ∨ (∃ x ∈ v.setupRead, b.offset ≤ x.1) →
      (v.served b).setupWord b.offset = v.setupWord b.offset ∧ ∃ x ∈ (v.served b).setupRead, x.1 = b.offset) ∧
    (b.late = false → (∀ x ∈ v.setupRead, x.1 < b.offset) → (v.served b).setupWord b.offset = b.value) := by
  refine ⟨fun h => ?_, fun hl h => ?_⟩
  · have hp : b.late = true ∨ v.checkPassed b.offset = true :=
      h.imp_right (fun ⟨x, hx, hle⟩ => checkPassed_of_recorded v _ x hx hle)
    have hr := shadowSetup_pos hm hf hp
    refine ⟨?_, ?_⟩
    · rw [served_setupWord, hr]
      exact wordSeen_recorded _ _ _
    · rw [served_eq, hr]
      exact ⟨_, List.mem_append_right _ (List.mem_singleton.2 rfl), rfl⟩
  · have hp : v.checkPassed b.offset = false := by
      unfold State.checkPassed
      rw [List.any_eq_false]
      intro x hx
      have := h x hx
      simp only [decide_eq_true_eq]
      omega
    rw [served_setupWord, shadowSetup_neg (by simp [hl, hp]),
      wordSeen_unrecorded (fun x hx => Nat.ne_of_lt (h x hx)), served_readWord_same hw h4 hb]

/-- What the check has on record where the write does not concern it. -/
theorem served_setupRead (h : ¬ (v.modState = .starting ∧ setupField b.offset = true) ∨
    (b.late = false ∧ ∀ x ∈ v.setupRead, x.1 < b.offset)) : (v.served b).setupRead = v.setupRead := by
  rw [served_eq]
  refine shadowSetup_neg (fun k => ?_)
  rcases h with h | ⟨hl, h⟩
  · exact h ⟨k.1, k.2.1⟩
  · rcases k.2.2 with k | k
    · simp [hl] at k
    · obtain ⟨x, hx, hle⟩ := List.any_eq_true.1 k
      have := h x hx
      simp only [decide_eq_true_eq] at hle
      omega

/-- The words of a cell lie at the offsets of its fields but the tag. -/
theorem cellWords_congr {t : State} {n : Nat}
    (h : ∀ a, a % 4 = 0 → 0x800 + 64 * n ≤ a → a < 0x800 + 64 * n + 0x2C → a ≠ 0x800 + 64 * n + 8 →
      t.visitWord a = v.visitWord a) : t.cellWords n = v.cellWords n := by
  unfold State.cellWords cellBase
  simp only [CellWords.mk.injEq, Params.mk.injEq]
  refine ⟨?_, ?_, ⟨?_, ?_, ?_, ?_, ?_, ?_, ?_⟩, ?_⟩ <;> exact h _ (by omega) (by omega) (by omega) (by omega)

/-- The visit in progress (R6; log 24). -/
theorem served_visit (hw : v.memoryWf = true) (h4 : b.offset % 4 = 0) (hb : b.offset < 0x8000) {w : Walk}
    (hv : v.walk = some w) :
    (b.late = true ∨ (b.offset = 0x800 + 64 * w.at_ ∧ v.visitRead ≠ []) →
      (v.served b).cellWords w.at_ = v.cellWords w.at_) ∧
    (b.late = false → (∀ x ∈ v.visitRead, x.1 ≠ b.offset) →
      (b.offset = 0x800 + 64 * w.at_ → v.visitRead = []) → (v.served b).visitWord b.offset = b.value) := by
  refine ⟨fun h => cellWords_congr (fun a ha h3 h5 h6 => ?_), fun hl h h' => ?_⟩
  · by_cases e : a = b.offset
    · subst e
      have hi : v.inVisit b.offset = true := by
        unfold State.inVisit cellBase
        rw [hv]
        simp only [Bool.and_eq_true, decide_eq_true_eq, bne_iff_ne, ne_eq]
        exact ⟨⟨h3, h5⟩, h6⟩
      have hp : b.late = true ∨ v.visitPassed b.offset = true := by
        refine h.imp_right (fun ⟨h7, h8⟩ => ?_)
        unfold State.visitPassed cellBase
        rw [hv]
        simp [h7, h8]
      rw [served_visitWord, shadowVisit_pos hi hp]
      exact wordSeen_recorded _ _ _
    · exact served_visitWord_other h4 ha e
  · have hp : v.visitPassed b.offset = false := by
      unfold State.visitPassed cellBase
      rw [hv]
      simp only [Bool.or_eq_false_iff, List.any_eq_false, beq_iff_eq, Bool.and_eq_false_iff, beq_eq_false_iff_ne]
      refine ⟨h, ?_⟩
      by_cases e : b.offset = 0x800 + 64 * w.at_
      · exact .inr (by simp [h' e])
      · exact .inl e
    rw [served_visitWord, shadowVisit_neg (by simp [hl, hp]), wordSeen_unrecorded h, served_readWord_same hw h4 hb]

/-- What the visit has on record where the write does not concern it. -/
theorem served_visitRead (h : (∀ w, v.walk = some w →
      ¬ (0x800 + 64 * w.at_ ≤ b.offset ∧ b.offset < 0x800 + 64 * w.at_ + 64)) ∨
    (b.late = false ∧ v.visitRead = [])) : (v.served b).visitRead = v.visitRead := by
  rw [served_eq]
  refine shadowVisit_neg (fun ⟨k1, k2⟩ => ?_)
  rcases h with h | ⟨hl, h⟩
  · unfold State.inVisit cellBase at k1
    split at k1
    · rename_i w hw
      simp only [Bool.and_eq_true, decide_eq_true_eq] at k1
      exact h w hw ⟨k1.1.1, by omega⟩
    · cases k1
  · rcases k2 with k2 | k2
    · simp [hl] at k2
    · unfold State.visitPassed at k2
      rw [h] at k2
      split at k2 <;> simp at k2

/-! ### The step -/

theorem prepareBefore_eq : v.prepareBefore b =
    { v with mem := (v.prepareBefore b).mem, toClear := (v.prepareBefore b).toClear } := by
  unfold State.prepareBefore
  split
  · rw [prepareMemory_fields]
  · rfl

theorem memoryWf_prepareBefore (h : v.memoryWf = true) : (v.prepareBefore b).memoryWf = true := by
  unfold State.prepareBefore
  split
  · exact memoryWf_prepareMemory h
  · exact h

/-- The state that a late write in POWER_UP meets is prepared; another write meets the state as it is. -/
theorem prepareBefore_meets (h : v.memoryWf = true) :
    if v.modState = .powerUp ∧ b.late = true then
      v.prepared (v.prepareBefore b) ∧ v.prepareBefore b = { v with mem := (v.prepareBefore b).mem, toClear := none }
    else v.prepareBefore b = v := by
  unfold State.prepareBefore
  by_cases hc : v.modState = .powerUp ∧ b.late = true
  · rw [if_pos hc, if_pos (by simpa using hc)]
    exact ⟨prepared_prepareMemory h, prepareMemory_fields v⟩
  · rw [if_neg hc, if_neg (by simpa using hc)]

theorem wordOffset_iff : wordOffset a = true ↔ a % 4 = 0 ∧ a < 0x8000 := by
  unfold wordOffset
  rw [Bool.and_eq_true, beq_iff_eq, decide_eq_true_iff]
  rfl

/-- A write served, by its own fields. -/
theorem served_fields : v.served b = { v with
    mem := (v.served b).mem, setupRead := (v.served b).setupRead, visitRead := (v.served b).visitRead } := by
  rw [served_eq]

/-- Settles O2: the write meets the state `u`, prepared where the write is late in POWER_UP. -/
theorem stepWithoutCommand : Obligations.StepWithoutCommand := by
  intro s hp
  refine ⟨fun hb => by unfold step; rw [hp, hb], fun b rest hb => ?_⟩
  have hstep : step s = busWrite b { s with busWrites := rest } := by unfold step; rw [hp, hb]
  refine ⟨fun h => ?_, fun hw h4 hlt => ?_⟩
  · rw [hstep]
    unfold busWrite
    rw [if_neg]
    rw [wordOffset_iff]
    omega
  · have hmeets := prepareBefore_meets (v := { s with busWrites := rest }) (b := b) hw
    have hfields := prepareBefore_eq (v := { s with busWrites := rest }) (b := b)
    have hvw := memoryWf_prepareBefore (v := { s with busWrites := rest }) (b := b) hw
    have hserve : step s = .next ((({ s with busWrites := rest } : State).prepareBefore b).served b) := by
      rw [hstep]
      unfold busWrite
      rw [if_pos (wordOffset_iff.2 ⟨h4, hlt⟩)]
      rfl
    generalize ({ s with busWrites := rest } : State).prepareBefore b = v at hmeets hfields hvw hserve
    have e1 : v.modState = s.modState := by rw [hfields]
    have e2 : v.setupRead = s.setupRead := by rw [hfields]
    have e3 : v.visitRead = s.visitRead := by rw [hfields]
    have e4 : v.walk = s.walk := by rw [hfields]
    have e5 : v.busWrites = rest := by rw [hfields]
    rw [← e1, ← e2, ← e3, ← e4]
    refine ⟨{ v with busWrites := s.busWrites }, v.served b, ?_, hserve, served_readWord_same hvw h4 hlt, ?_, ?_,
      fun hm hf => ?_, fun a ha hne => served_setupWord_other h4 ha hne, served_setupRead,
      fun w hv _ _ => served_visit hvw h4 hlt hv, served_visitRead⟩
    · rw [e1]
      split at hmeets
      · rename_i hc
        rw [if_pos hc]
        refine ⟨hmeets.1, ?_⟩
        rw [hmeets.2]
      · rename_i hc
        rw [if_neg hc, hmeets]
    · intro a ha
      refine served_readByte.trans (readByte_writeWord_other ?_)
      unfold inWord at ha
      omega
    · rw [← e5]
      exact served_fields
    · have hsv : s = { v with busWrites := s.busWrites } := by
        rw [if_neg (by rw [← e1, hm]; simp)] at hmeets
        rw [hmeets]
      have hset : s.setupWord b.offset = v.setupWord b.offset := by rw [hsv]; rfl
      rw [hset]
      exact served_check hvw h4 hlt hm hf

end Sys2Proof.Machine
end

section
/-!
When nothing follows an event, told by its parts (R122, R185); the millisecond (R180); CANCEL_WATCH and CLEAR_FAULT
(R123, R166, R167); control orders carried out (R39); watches armed (R38).
-/

open Sys2Proof Sys2Proof.Machine

namespace Sys2Proof.Machine

variable {s t : State} {r : Race} {ax : AxisIx}

/-! ### Nothing follows -/

theorem mem_allAxes (ax : AxisIx) : ax ∈ allAxes := by fin_cases ax <;> decide

theorem calm_iff : s.calm = true ↔ s.agenda = [] ∧ ∀ ax, (s.axis ax).ref.assignDue = false := by
  simp only [State.calm, Bool.and_eq_true, List.isEmpty_iff, List.all_eq_true, Bool.not_eq_true']
  exact and_congr_right fun _ => ⟨fun h ax => h ax (mem_allAxes ax), fun h ax _ => h ax⟩

theorem quiet_iff : s.quiet = true ↔
    s.agenda = [] ∧ (∀ ax, (s.axis ax).ref.assignDue = false) ∧ s.modState ≠ .stopping := by
  simp only [State.quiet, Bool.and_eq_true, calm_iff, bne_iff_ne, ne_eq, and_assoc]

theorem settled_iff : s.settled = true ↔
    s.agenda = [] ∧ (∀ ax, (s.axis ax).ref.assignDue = false) ∧ (s.modState = .stopping → s.allAtRest = false) := by
  simp only [State.settled, Bool.and_eq_true, calm_iff, Bool.not_eq_true', Bool.and_eq_false_iff,
    beq_eq_false_iff_ne, and_assoc]
  refine and_congr_right fun _ => and_congr_right fun _ => ?_
  by_cases h : s.modState = .stopping <;> simp [h]

/-- Whether every axis is at rest hangs on the axis states alone. -/
theorem allAtRest_congr (h : ∀ ax, (t.axis ax).state = (s.axis ax).state) : t.allAtRest = s.allAtRest := by
  simp only [State.allAtRest, Axis.atRest, h]

/-- What settles a state: the agenda, the due assignments, the module state and the axis states. -/
theorem settled_congr (h1 : t.agenda = s.agenda) (h2 : t.modState = s.modState)
    (h3 : ∀ ax, (t.axis ax).ref.assignDue = (s.axis ax).ref.assignDue)
    (h4 : ∀ ax, (t.axis ax).state = (s.axis ax).state) (h : s.settled = true) : t.settled = true := by
  rw [settled_iff] at h ⊢
  rw [h1, h2, allAtRest_congr h4]
  exact ⟨h.1, fun ax => (h3 ax).trans (h.2.1 ax), h.2.2⟩

/-- What quiets a state: the agenda, the due assignments and the module state. -/
theorem quiet_congr (h1 : t.agenda = s.agenda) (h2 : t.modState = s.modState)
    (h3 : ∀ ax, (t.axis ax).ref.assignDue = (s.axis ax).ref.assignDue) (h : s.quiet = true) : t.quiet = true := by
  rw [quiet_iff] at h ⊢
  rw [h1, h2]
  exact ⟨h.1, fun ax => (h3 ax).trans (h.2.1 ax), h.2.2⟩

/-- An update that leaves agenda, module state and axes leaves a quiet state quiet. -/
theorem quiet_of_same (h1 : t.agenda = s.agenda) (h2 : t.modState = s.modState) (h3 : t.axes = s.axes)
    (h : s.quiet = true) : t.quiet = true :=
  quiet_congr h1 h2 (fun ax => by simp only [State.axis, h3]) h

/-- The same of a settled state. -/
theorem settled_of_same (h1 : t.agenda = s.agenda) (h2 : t.modState = s.modState) (h3 : t.axes = s.axes)
    (h : s.settled = true) : t.settled = true :=
  settled_congr h1 h2 (fun ax => by simp only [State.axis, h3]) (fun ax => by simp only [State.axis, h3]) h

/-! ### The millisecond (R180) -/

theorem tick_axis (h : s.modState ≠ .powerUp) (ax : AxisIx) : (s.tick.axis ax) = (s.axis ax).tick := by
  unfold State.tick State.axis
  rw [if_neg h]
  exact Quad.get_map _ _ _

theorem timerTick_eq (o : Option Nat) : timerTick o = o.map (· - 1) := by cases o <;> rfl

theorem tick_settled (h : s.modState ≠ .powerUp) (hs : s.settled = true) : s.tick.settled = true := by
  refine settled_congr ?_ ?_ (fun ax => ?_) (fun ax => ?_) hs
  · unfold State.tick; rw [if_neg h]
  · unfold State.tick; rw [if_neg h]
  · rw [tick_axis h]; rfl
  · rw [tick_axis h]; rfl

/-- A watch after a millisecond. -/
theorem watchTick_eq (v : Watch) :
    (v.quantity ≠ .elapsed → v.tick = { v with sinceArm := min (v.sinceArm + 1) 0xFFFFFFFF }) ∧
    (v.quantity = .elapsed → v.tick = { v with
      sinceArm := min (v.sinceArm + 1) 0xFFFFFFFF
      elapsed := min (v.elapsed + 1) 0xFFFFFFFF
      truth := v.truth && v.condition.holds v.threshold (.value (min (v.elapsed + 1) 0xFFFFFFFF : Nat)) }) := by
  unfold Watch.tick
  exact ⟨fun h => by rw [if_neg h]; rfl, fun h => by rw [if_pos h]; rfl⟩

/-- An order after a millisecond. -/
theorem entryTick_eq (e : Entry) (b : Bool) : e.tick b =
    if e.status = .active then
      { e with
        elapsed := min (e.elapsed + 1) 0xFFFFFFFF
        deadlineTimer := e.deadlineTimer.map (· - 1)
        dwellLeft := if b = true ∧ e.kind = .dwell then e.dwellLeft - 1 else e.dwellLeft }
    else e := by
  unfold Entry.tick
  simp only [timerTick_eq, countMs, maxCount, Bool.and_eq_true, decide_eq_true_eq]

/-- Settles O46: nothing follows a millisecond, and each part moves by one. -/
theorem millisecondTick : Obligations.MillisecondTick := by
  intro s r hm hs
  have hx : exec (.moduleClockTick r) s = .next s.tick := by
    have hc : s.tick.chain = s.chain := by unfold State.tick; rw [if_neg hm]
    show Host.Outcome.next (if s.modState = .powerUp then s else s.close r s.tick) = _
    rw [if_neg hm, close_of_settled (tick_settled hm hs) (by rw [hc]; omega)]
  have ht : s.tick = { s with
      clock := s.clock + 1, axes := s.axes.map Axis.tick, watches := s.watches.map Watch.tick
      triggers := s.triggers.map Trigger.tick
      supTimer := if s.modState = .running then timerTick s.supTimer else s.supTimer } := by
    unfold State.tick; rw [if_neg hm]
  refine ⟨s.tick, hx, by rw [ht], ?_, fun o => ?_, fun ax => ⟨fun hl => ?_, fun e es hl => ?_, ?_, ?_⟩, ?_,
    fun i v v' hv hv' => ?_, ?_⟩
  · rw [ht]
    simp only [timerTick_eq]
  · rw [ht]
    simp only [Quad.get_map, Trigger.tick, timerTick_eq]
  · rw [tick_axis hm]
    simp only [Axis.tick, hl]
  · rw [tick_axis hm]
    simp only [Axis.tick, hl, entryTick_eq, decide_eq_true_eq]
  · rw [tick_axis hm]
    simp only [Axis.tick, timerTick_eq]
  · rw [tick_axis hm]
    rfl
  · rw [ht]
    exact List.length_map _
  · rw [ht] at hv'
    simp only [List.getElem?_map, hv, Option.map_some, Option.some.injEq] at hv'
    exact hv' ▸ watchTick_eq v
  · rw [ht]

/-! ### CANCEL_WATCH and CLEAR_FAULT (R123, R166, R167) -/

/-- A watch of the table is the watch of its cell. -/
theorem watchOf_of_mem {v : Watch} (hs : s.onePlace) (hv : v ∈ s.watches) : s.watchOf v.cell = some v := by
  have hn := watches_nodup hs
  unfold State.watchOf
  obtain ⟨w, hw⟩ : ∃ w, s.watches.find? (fun w => w.cell == v.cell) = some w := by
    rw [← Option.isSome_iff_exists, List.find?_isSome]
    exact ⟨v, hv, by simp⟩
  have hc : w.cell = v.cell := by simpa using List.find?_some hw
  rw [hw, List.inj_on_of_nodup_map hn (List.mem_of_find?_eq_some hw) hv hc]

theorem watchOf_eq_none {n : Nat} (h : n ∉ s.watches.map (·.cell)) : s.watchOf n = none := by
  unfold State.watchOf
  rw [List.find?_eq_none]
  intro w hw e
  exact h (List.mem_map.2 ⟨w, hw, by simpa using e⟩)

/-- A cell that stands elsewhere is not the tail of the chain. -/
theorem tail_ne_of_count {n tail : Nat} (hs : s.onePlace) (hn : s.chain.count n < s.cells.count n)
    (ht : s.chain.getLast? = some tail) : tail ≠ n := by
  rintro rfl
  have h1 := List.count_pos_iff.2 (List.mem_of_getLast? ht)
  have h2 := List.nodup_iff_count_le_one.1 hs.1 tail
  omega

theorem tail_ne_watch {v : Watch} {tail : Nat} (hs : s.onePlace) (hv : v ∈ s.watches)
    (ht : s.chain.getLast? = some tail) : tail ≠ v.cell := by
  refine tail_ne_of_count hs ?_ ht
  have := List.count_pos_iff.2 (List.mem_map_of_mem (f := fun w => w.cell) hv)
  rw [count_cells]
  omega

theorem tail_ne_entry {e : Entry} {tail : Nat} (hs : s.onePlace) (he : e ∈ (s.axis ax).list)
    (ht : s.chain.getLast? = some tail) : tail ≠ e.cell := by
  refine tail_ne_of_count hs ?_ ht
  have := List.count_pos_iff.2 (List.mem_map_of_mem (f := fun e => e.cell) he)
  rw [count_cells]
  unfold cellsOf
  fin_cases ax <;> dsimp at * <;> omega

/-- A watch that ends leaves the table, and its cell ends and is linked (R120, R123). -/
theorem endWatch_eq (w : Watch) (c : EndCode) : s.endWatch w c = { s with
    mem := (s.endWatch w c).mem, watches := s.watches.filter (fun x => x.cell != w.cell), chain := s.chain ++ [w.cell]
    causes := { s.causes with ret := s.causes.ret || w.notify } } := by
  unfold State.endWatch
  rw [endCell_eq]

theorem endWatch_other {w : Watch} {c : EndCode} {a : Nat} (h : ¬ mayWrite s w.cell a) :
    (s.endWatch w c).readByte a = s.readByte a :=
  readByte_endCell_other (s := { s with watches := s.watches.filter (fun x => x.cell != w.cell) }) h

/-- The code word of a watch's result part. -/
theorem watchResult_codeWord (w : Watch) (c : Nat) : (w.result c).codeWord = bytes4 c 0 (32 * w.lastNA.toNat) 0 := by
  simp [Result.codeWord, Watch.result, FlyOutcome.bits]

theorem endWatch_endReads {w : Watch} {c : EndCode} (h : s.memoryWf = true) (hn : w.cell < 480) :
    (s.endWatch w c).endReads w.cell (bytes4 c.code 0 (32 * w.lastNA.toNat) 0) (BitVec.ofNat 32 w.fireCount) w.lastCmd
      w.lastFb (BitVec.ofNat 32 w.sinceArm) := by
  rw [← watchResult_codeWord]
  exact endCell_endReads (s := { s with watches := s.watches.filter (fun x => x.cell != w.cell) }) h hn

theorem endWatch_resultReads {w : Watch} {c : EndCode} (h : s.memoryWf = true) (hn : w.cell < 480)
    (ht : ∀ tail, s.chain.getLast? = some tail → tail ≠ w.cell) :
    (s.endWatch w c).resultReads w.cell (bytes4 c.code 0 (32 * w.lastNA.toNat) 0) (BitVec.ofNat 32 w.fireCount)
      w.lastCmd w.lastFb (BitVec.ofNat 32 w.sinceArm) := by
  rw [← watchResult_codeWord]
  exact endCell_resultReads (s := { s with watches := s.watches.filter (fun x => x.cell != w.cell) }) h hn ht

/-- A CANCEL_WATCH that finds a watch. -/
theorem cancelWatch_found {v : Watch} {n : Nat} (hs : s.onePlace) (hv : v ∈ s.watches) (hn : v.cell = n) :
    s.cancelWatch n = .done (s.endWatch v .cancelled) := by
  unfold State.cancelWatch
  rw [← hn, watchOf_of_mem hs hv]

/-- Settles O31: the cases of CANCEL_WATCH and of the two CLEAR_FAULTs, in the order of the rules. -/
theorem cancelAndClear : Obligations.CancelAndClear := by
  refine ⟨fun s p => ⟨fun h => ?_, fun v hv hn hlt hw hs => ?_⟩, fun s ax p => ⟨fun h => ?_, fun h => ⟨fun h1 h2 => ?_,
    fun h1 => ⟨fun h2 => ?_, fun h2 h3 h4 => ?_⟩⟩⟩, fun s p => ⟨fun h => ?_, fun h => ⟨fun h1 => ?_, fun h1 => ?_⟩⟩⟩
  · show s.cancelWatch p.p1.toNat = _
    unfold State.cancelWatch
    rw [watchOf_eq_none h]
    rfl
  · refine ⟨s.endWatch v .cancelled, cancelWatch_found hs hv hn, ?_, ?_, (endWatch_endReads hw hlt).1,
      endWatch_resultReads hw hlt (fun _ => tail_ne_watch hs hv), fun _ => endWatch_other, ?_, ?_⟩
    all_goals rw [endWatch_eq]
  · show s.clearAxisFault ax = _
    unfold State.clearAxisFault
    rw [h]
    rfl
  · show s.clearAxisFault ax = _
    obtain ⟨f, hf⟩ := Option.ne_none_iff_exists'.1 h
    simp [State.clearAxisFault, hf, h1, h2]
  · show s.clearAxisFault ax = _
    obtain ⟨f, hf⟩ := Option.ne_none_iff_exists'.1 h
    have h2' : ((s.axis ax).alarmActive || (decide (0 < (s.axis ax).setup.followLimit)
        && decide ((s.axis ax).setup.followLimit < (s.axis ax).followMagnitude))) = true := by simpa using h2
    have h1' : ((s.axis ax).state = .stopping && (s.axis ax).stopCause = .fault) = false := by simpa using h1
    simp only [State.clearAxisFault, hf, h2', h1', if_true]
    rfl
  · obtain ⟨f, hf⟩ := Option.ne_none_iff_exists'.1 h
    have h3' : ¬ (0 < (s.axis ax).setup.followLimit ∧ (s.axis ax).setup.followLimit < (s.axis ax).followMagnitude) := by
      omega
    have hc : s.carryOut .clearFault (.axis ax) p =
        .done ((s.removeFault (.axis ax)).setAxisState ax .idle .none) := by
      show s.clearAxisFault ax = _
      simp [State.clearAxisFault, hf, h4, h2, h3']
    have ha : ((s.removeFault (.axis ax)).setAxisState ax .idle .none).axis ax
        = { s.axis ax with state := .idle, stopCause := .none } := axis_updAxis_same _ _ _
    refine ⟨_, hc, rfl, ha, ?_, fun j hj => axis_updAxis_other _ _ hj, rfl⟩
    rw [ha]
    rfl
  · show s.clearModuleFault = _
    unfold State.clearModuleFault
    rw [h]
    rfl
  · obtain ⟨f, hf⟩ := Option.ne_none_iff_exists'.1 h
    show s.clearModuleFault = _
    unfold State.clearModuleFault
    rw [hf]
    dsimp only
    rw [if_neg (show ¬ (s.removeFault .module).modState = .silent from h1)]
    rfl
  · obtain ⟨f, hf⟩ := Option.ne_none_iff_exists'.1 h
    show s.clearModuleFault = _
    unfold State.clearModuleFault
    rw [hf]
    dsimp only
    rw [if_pos (show (s.removeFault .module).modState = .silent from h1)]
    rfl

end Sys2Proof.Machine
end

section
/-!
What a visit makes of an offered cell, verdict by verdict (R26, R36 to R39); control orders carried out and watches
armed.
-/

open Sys2Proof Sys2Proof.Machine

namespace Sys2Proof.Machine

variable {s s' t : State} {r : Race} {w : Walk} {n : Nat}

/-- A walk does not end at an offered cell (R26). -/
theorem endsAt_of_offeredAt (h : s.offeredAt w) : s.endsAt w.at_ = none := by
  obtain ⟨-, hn, hh, hb⟩ := h
  unfold State.endsAt
  rw [if_neg (by unfold noIndex; omega), if_neg (by unfold Config.cellCount; omega), if_neg ?_]
  simp only [State.isHeld, CellWords.stateByte, hb, offeredByte]
  simpa using hh

/-- A visit carries its verdict through, and forgets the words it read. -/
theorem visit_of_decides {v : Verdict} (h : s.offeredAt w) (hv : s.decides w = v) :
    s.visit w = { s.applyVerdict w w.at_ (s.cellWords w.at_) v with visitRead := [] } := by
  unfold State.visit
  rw [endsAt_of_offeredAt h, ← hv]
  rfl

theorem exec_cellVisit (h : s.offeredAt w) : exec (.cellVisit r) s = .next (s.close r (s.visit w)) := by
  show Host.Outcome.next (match s.walk with
    | some w => s.close r (s.visit w)
    | none => s) = _
  rw [h.1]

/-- A cell taken on in the course of a visit reads its state byte, an empty result part, and is held. -/
theorem admitCell_reads {b : Byte} (h : s.memoryWf = true) (hn : n < 480) :
    (s.admitCell n b).readByte (0x800 + 64 * n) = b ∧ (s.admitCell n b).resultReads n 0 0 0 0 0 := by
  have hwf : (s.writeAdmission n).memoryWf = true := memoryWf_writeReturnLink (memoryWf_writeResult h)
  have hstate : (s.admitCell n b).readByte (0x800 + 64 * n) = b := by
    unfold State.admitCell
    rw [readByte_setHeld, writeCellState_reads hwf hn]
  have hword : ∀ a, 0x800 + 64 * n + 4 ≤ a → (s.admitCell n b).readByte a = (s.writeAdmission n).readByte a :=
    fun a ha => by
      unfold State.admitCell
      rw [readByte_setHeld, readByte_writeCellState_other (by omega)]
  have hw : ∀ o, 4 ≤ o → (s.admitCell n b).readWord (0x800 + 64 * n + o)
      = (s.writeAdmission n).readWord (0x800 + 64 * n + o) :=
    fun o ho => readWord_congr fun k _ => hword _ (by omega)
  obtain ⟨h1, h2, h3, h4, h5, h6, h7⟩ := writeAdmission_reads h hn
  unfold State.resultReads
  rw [hw 0x2C (by omega), hw 0x30 (by omega), hw 0x34 (by omega), hw 0x38 (by omega), hw 0x3C (by omega),
    hword (_ + 6) (by omega), hword (_ + 7) (by omega)]
  exact ⟨hstate, h1, h2, h3, h4, h5, h6, h7⟩

theorem holdsToo_insertNat (h : t.held = insertNat n s.held) : s.holdsToo t n := by
  intro m
  rw [h, mem_insertNat]
  exact or_comm

/-! ### Readings hang on memory alone -/

theorem readWord_of_mem (h : t.mem = s.mem) (a : Nat) : t.readWord a = s.readWord a :=
  readWord_congr fun _ _ => readByte_of_mem h _

theorem resultReads_of_mem {c f cmd fb e : Word} (h : t.mem = s.mem) (hr : s.resultReads n c f cmd fb e) :
    t.resultReads n c f cmd fb e := by
  simpa only [State.resultReads, readWord_of_mem h, readByte_of_mem h] using hr

theorem endReads_of_mem {c f cmd fb e : Word} (h : t.mem = s.mem) (hr : s.endReads n c f cmd fb e) :
    t.endReads n c f cmd fb e := by
  simpa only [State.endReads, readWord_of_mem h, readByte_of_mem h] using hr

/-! ### A control order (R39) -/

/-- What a control order's visit makes of the state after its effect (R39, R151). -/
def State.doneVisit (s' : State) (w : Walk) (c : CellWords) (sc : Scope) : State :=
  { (s'.setHeld w.at_).endCell w.at_ (s'.doneResult sc) c.options.notify with
    walk := some (w.countAdmitted c.postLink), visitRead := [] }

theorem doneVisit_eq (c : CellWords) (sc : Scope) : s'.doneVisit w c sc = { s' with
    mem := (s'.doneVisit w c sc).mem, held := insertNat w.at_ s'.held, chain := s'.chain ++ [w.at_]
    causes := { s'.causes with ret := s'.causes.ret || c.options.notify }
    walk := some (w.countAdmitted c.postLink), visitRead := [] } := by
  unfold State.doneVisit
  rw [endCell_eq]
  rfl

theorem doneVisit_reads {c : CellWords} {sc : Scope} (h : s'.memoryWf = true) (hn : w.at_ < 480)
    (ht : ∀ tail, s'.chain.getLast? = some tail → tail ≠ w.at_) :
    (s'.doneVisit w c sc).readByte (0x800 + 64 * w.at_) = 6 ∧
    (s'.doneVisit w c sc).resultReads w.at_ 9 0 (s'.doneResult sc).cmd (s'.doneResult sc).fb 0 := by
  have hc : (s'.doneResult sc).codeWord = 9 := by
    show bytes4 9 0 0 0 = 9
    decide
  have hr := endCell_resultReads (s := s'.setHeld w.at_) (r := s'.doneResult sc) (b := c.options.notify) h hn ht
  have he := endCell_endReads (s := s'.setHeld w.at_) (r := s'.doneResult sc) (b := c.options.notify) h hn
  rw [hc] at hr
  exact ⟨he.1, resultReads_of_mem (t := s'.doneVisit w c sc) rfl hr⟩

/-- Settles O25: the cell ends behind whatever the effect itself ended, and nothing more follows a settled effect. -/
theorem visitCarriesOutControl : Obligations.VisitCarriesOutControl := by
  intro s s' w r sc ho hd hm ht
  obtain ⟨h6, hr⟩ := doneVisit_reads (c := s.cellWords w.at_) (sc := sc) hm ho.2.1 ht
  have he := doneVisit_eq (s' := s') (w := w) (s.cellWords w.at_) sc
  have hv : s.visit w = s'.doneVisit w (s.cellWords w.at_) sc := visit_of_decides ho hd
  refine ⟨s'.doneVisit w (s.cellWords w.at_) sc, (exec_cellVisit ho).trans (by rw [hv]), fun hs hc => ?_, h6,
    fun ax ha => ?_, fun ha => ?_, fun a ha => ?_, holdsToo_insertNat ?_, ?_, ?_, ?_, ?_⟩
  · rw [close_of_uncollected hc]
    exact finish_of_settled (settled_of_same (by rw [he]) (by rw [he]) (by rw [he]) hs)
  · subst ha; exact hr
  · subst ha; exact hr
  · exact readByte_endCell_other (s := s'.setHeld w.at_) ha
  all_goals rw [he]
  rfl

/-! ### A watch armed (R38) -/

/-- What the visit of a watch makes of the state (R38, R117). -/
def State.armVisit (s : State) (w : Walk) (c : CellWords) : State :=
  { s.arm w.at_ c with walk := some (w.countAdmitted c.postLink), visitRead := [] }

theorem armVisit_eq (c : CellWords) : s.armVisit w c = { s with
    mem := (s.admitCell w.at_ armedByte).mem, held := insertNat w.at_ s.held
    watches := s.watches ++ [{ watchFrom w.at_ c with truth := s.watchHolds (watchFrom w.at_ c) }]
    walk := some (w.countAdmitted c.postLink), visitRead := [] } := by
  unfold State.armVisit
  rw [armed_eq, admitCell_eq]

theorem applyVerdict_watch (c : CellWords) :
    s.applyVerdict w n c .watch = { s.arm n c with walk := some (w.countAdmitted c.postLink) } := rfl

theorem visit_watch (ho : s.offeredAt w) (hd : s.decides w = .watch) :
    s.visit w = s.armVisit w (s.cellWords w.at_) := by
  rw [visit_of_decides ho hd, applyVerdict_watch]
  dsimp only [State.armVisit]

theorem armVisit_mem (c : CellWords) : (s.armVisit w c).mem = (s.admitCell w.at_ armedByte).mem := by rw [armVisit_eq]

theorem writesOnly_of_mem (h : t.mem = s'.mem) (hw : s.writesOnly s' n) : s.writesOnly t n := fun a ha =>
  (readByte_of_mem h a).trans (hw a ha)

/-- Nothing follows the arming of a watch. -/
theorem exec_visit_watch (hq : s.quiet = true) (ho : s.offeredAt w) (hd : s.decides w = .watch) :
    exec (.cellVisit r) s = .next (s.armVisit w (s.cellWords w.at_)) := by
  have he := armVisit_eq (s := s) (w := w) (s.cellWords w.at_)
  rw [exec_cellVisit ho, visit_watch ho hd,
    close_of_quiet (quiet_of_same (by rw [he]) (by rw [he]) (by rw [he]) hq) (by rw [he]; exact Nat.le_succ _)]

theorem axisOfNat_val (i : Fin 4) : axisOfNat i.val = i := Fin.ext (Nat.mod_eq_of_lt i.isLt)

theorem gateOfNat_val (g : Fin 16) : gateOfNat g.val = g := Fin.ext (Nat.mod_eq_of_lt g.isLt)

/-- The codes of a quantity and its source (R14). -/
theorem quantityOf_codes (p : Params) (i : Fin 4) (hi : p.p2.toNat = i.val) :
    (p.p1 = 1 → quantityOf p = .commandedPos i) ∧ (p.p1 = 2 → quantityOf p = .feedbackPos i) ∧
    (p.p1 = 3 → quantityOf p = .speed i) ∧ (p.p1 = 4 → quantityOf p = .followingError i) ∧
    (p.p1 = 5 → quantityOf p = .eventInput i) := by
  have ha : axisOfNat p.p2.toNat = i := by rw [hi, axisOfNat_val]
  refine ⟨?_, ?_, ?_, ?_, ?_⟩
  all_goals
    intro h
    simp only [quantityOf, h, ha]
    rfl

/-- The codes of the axis and output actions (R14). -/
theorem actionOf_codes (p : Params) (i : Fin 4) (hi : (p.p6.extractLsb' 0 16).toNat = i.val) :
    (p.p5 = 2 → actionOf p = .advance i) ∧ (p.p5 = 3 → actionOf p = .hold i) ∧ (p.p5 = 4 → actionOf p = .stop i) ∧
    (p.p5 = 5 → actionOf p = .setSpeed i p.p7.toNat) ∧ (p.p5 = 6 → actionOf p = .pulseOutput i p.p7.toNat) := by
  have ha : axisOfNat p.actionTarget = i := by rw [← axisOfNat_val i, ← hi]; rfl
  refine ⟨?_, ?_, ?_, ?_, ?_⟩
  all_goals
    intro h
    simp only [actionOf, h, ha]
    rfl

/-- A quantity's value is compared itself; a speed by its square (R115; log 34). -/
theorem holds_speedSq (t : Int) (sq : Nat) :
    (Condition.atOrAbove.holds t (.speedSq sq) = true ↔ t < 0 ∨ sqOf t.toNat ≤ sq) ∧
    (Condition.above.holds t (.speedSq sq) = true ↔ t < 0 ∨ sqOf t.toNat < sq) ∧
    (Condition.below.holds t (.speedSq sq) = true ↔ 0 ≤ t ∧ sq < sqOf t.toNat) := by
  have h0 : t = 0 → sqOf t.toNat = 0 := by rintro rfl; rfl
  simp only [Condition.holds, Bool.or_eq_true, Bool.and_eq_true, decide_eq_true_eq, true_and]
  refine ⟨⟨fun h => ?_, fun h => ?_⟩, ⟨fun h => ⟨by omega, h.2⟩, fun h => ⟨?_, h.2⟩⟩⟩
  · rcases h with h | h
    · rcases Int.lt_or_eq_of_le h with h | h
      · exact .inl h
      · exact .inr (by rw [h0 h]; exact Nat.zero_le _)
    · exact .inr h
  · exact h.imp Int.le_of_lt id
  · omega

theorem holds_sqOf (c : Condition) (t : Int) (v : Nat) : c.holds t (.speedSq (sqOf v)) = c.holds t (.value v) := by
  cases c
  all_goals
    simp only [Condition.holds, sqOf_le_sqOf, sqOf_lt_sqOf, sqOf_inj]
    rw [Bool.eq_iff_iff]
    simp only [Bool.or_eq_true, Bool.and_eq_true, decide_eq_true_eq]
    omega

/-- What each quantity is at a moment (R114). -/
theorem sample_of_quantity (s : State) (v : Watch) (i : Fin 4) :
    (v.quantity = .commandedPos i → s.sample v = .value (s.axis i).commanded.toInt) ∧
    (v.quantity = .feedbackPos i → s.sample v = .value (s.axis i).feedback.toInt) ∧
    (v.quantity = .speed i → s.sample v = .speedSq (s.axis i).prof.speedSq) ∧
    (v.quantity = .followingError i → s.sample v = .value ((s.axis i).followErr.toInt.natAbs : Nat)) ∧
    (v.quantity = .eventInput i → s.sample v = .level (s.events.get i)) ∧
    (v.quantity = .elapsed → s.sample v = .value v.elapsed) := by
  refine ⟨?_, ?_, ?_, ?_, ?_, ?_⟩
  all_goals
    intro h
    unfold State.sample
    rw [h]
  rfl

/-- Settles O24: the watch joins the table with the truth of its moment; the codes, quantities and comparisons. -/
theorem visitArmsWatch : Obligations.VisitArmsWatch := by
  refine ⟨fun s w r hm hq ho hd => ?_, fun p => ⟨fun i hi => quantityOf_codes p i hi, ?_, ?_, ?_, ?_, ?_,
    fun g hg h => ?_, fun i hi => actionOf_codes p i hi, ?_⟩, sample_of_quantity,
    fun t v => ⟨?_, ?_, ?_, ?_⟩, holds_sqOf, holds_speedSq, fun c t b => rfl⟩
  · obtain ⟨h5, hr⟩ := admitCell_reads (b := armedByte) hm ho.2.1
    have hmem := armVisit_mem (s := s) (w := w) (s.cellWords w.at_)
    have he := armVisit_eq (s := s) (w := w) (s.cellWords w.at_)
    refine ⟨_, exec_visit_watch hq ho hd, (readByte_of_mem hmem _).trans h5, resultReads_of_mem hmem hr,
      writesOnly_of_mem hmem (writesOnly_admitCell _ _), holdsToo_insertNat (by rw [he]),
      ⟨{ watchFrom w.at_ (s.cellWords w.at_) with truth := s.watchHolds (watchFrom w.at_ (s.cellWords w.at_)) },
        by rw [he], rfl, rfl, rfl, rfl, rfl, rfl, rfl, rfl, rfl, rfl, rfl⟩, ?_, ?_⟩
    · rw [he]
      rfl
    · rw [he]
  · intro h; simp only [quantityOf, h]; rfl
  · intro h; simp only [conditionOf, h]; rfl
  · intro h; simp only [conditionOf, h]; rfl
  · intro h; simp only [conditionOf, h]; rfl
  · intro h; simp only [conditionOf, h]; rfl
  · have ha : gateOfNat p.actionTarget = g := by rw [← gateOfNat_val g, ← hg]; rfl
    simp only [actionOf, h, ha]
    rfl
  · intro h; simp only [actionOf, h]; rfl
  all_goals exact decide_eq_true_iff

end Sys2Proof.Machine
end

section
/-!
One axis replaced; the settling of an axis; a motion order admitted, queued, made to wait or begun (R37, R44, R49,
R50, R128).
-/

open Sys2Proof Sys2Proof.Machine

namespace Sys2Proof.Machine

variable {s t x : State} {r : Race} {w : Walk} {ax j : AxisIx} {a : Axis} {n : Nat} {e : Entry}

/-! ### One axis replaced -/

theorem updAxis_setAxis (f : Axis → Axis) : (x.setAxis ax a).updAxis ax f = x.setAxis ax (f a) := by
  fin_cases ax <;> rfl

theorem setAxis_axis : x.setAxis ax (x.axis ax) = x := by fin_cases ax <;> rfl

theorem head?_setAxis : (x.setAxis ax a).head? ax = a.list.head? := by
  unfold State.head?
  rw [axis_setAxis_same]

theorem updHead_setAxis {es : List Entry} (f : Entry → Entry) (h : a.list = e :: es) :
    (x.setAxis ax a).updHead ax f = x.setAxis ax { a with list := f e :: es } := by
  unfold State.updHead
  rw [updAxis_setAxis, h]

theorem setAxisState_setAxis (st : AxisState) (c : StopCause) :
    (x.setAxis ax a).setAxisState ax st c = x.setAxis ax { a with state := st, stopCause := c } := updAxis_setAxis _

/-- An axis with a due head and no other starts it once, where the start takes it out of IDLE or off the list. -/
theorem settle_start (h1 : (s.axis ax).state = .idle) (h2 : (s.axis ax).list ≠ [])
    (h3 : ((s.startDue ax).axis ax).state ≠ .idle ∨ ((s.startDue ax).axis ax).list = []) :
    s.settle ax = s.startDue ax := by
  have stop : ∀ m (y : State), ((y.axis ax).state ≠ .idle ∨ (y.axis ax).list = []) → State.settleGo ax m y = y := by
    intro m y hy
    cases m with
    | zero => rfl
    | succ m =>
        unfold State.settleGo
        rw [if_neg (by rcases hy with h | h <;> simp [h])]
  unfold State.settle State.settleGo
  rw [if_pos (by simp [h1, h2]), stop _ _ h3]

/-- An axis out of IDLE, or with an empty list, is settled. -/
theorem settle_eq_self (h : (s.axis ax).state ≠ .idle ∨ (s.axis ax).list = []) : s.settle ax = s := by
  unfold State.settle State.settleGo
  rw [if_neg (by rcases h with h | h <;> simp [h])]

/-! ### A state byte written again -/

theorem resultReads_writeCellState {v : Byte} {c f cmd fb l : Word} (h : s.resultReads n c f cmd fb l) :
    (s.writeCellState n v).resultReads n c f cmd fb l := by
  have hb : ∀ a, 0x800 + 64 * n + 4 ≤ a → (s.writeCellState n v).readByte a = s.readByte a := fun a ha =>
    readByte_writeCellState_other (by omega)
  have hw : ∀ o, 4 ≤ o → (s.writeCellState n v).readWord (0x800 + 64 * n + o) = s.readWord (0x800 + 64 * n + o) :=
    fun o ho => readWord_congr fun k _ => hb _ (by omega)
  unfold State.resultReads at h ⊢
  rw [hw 0x2C (by omega), hw 0x30 (by omega), hw 0x34 (by omega), hw 0x38 (by omega), hw 0x3C (by omega),
    hb (_ + 6) (by omega), hb (_ + 7) (by omega)]
  exact h

theorem writesOnly_writeCellState {v : Byte} (h : s.writesOnly x n) : s.writesOnly (x.writeCellState n v) n :=
  fun a ha => (readByte_writeCellState_other fun k => ha (.inl k)).trans (h a ha)

theorem memoryWf_admitCell {b : Byte} (h : s.memoryWf = true) : (s.admitCell n b).memoryWf = true := by
  have ha : (s.writeAdmission n).memoryWf = true := memoryWf_writeReturnLink (memoryWf_writeResult h)
  have hc : ((s.writeAdmission n).writeCellState n b).memoryWf = true := memoryWf_writeByte ha
  unfold State.memoryWf at hc ⊢
  exact hc

/-- The memory of a visit that admits a motion order. -/
@[irreducible] def State.admitMem (s : State) (n : Nat) : List Host.Cell := (s.admitCell n admittedByte).mem

/-- The memory of a visit that admits a motion order and writes its state byte again, as it waits or begins. -/
@[irreducible] def State.takenMem (s : State) (n : Nat) (b : Byte) : List Host.Cell :=
  ((s.admitCell n admittedByte).writeCellState n b).mem

theorem admitCell_admitMem :
    s.admitCell n admittedByte = { s with mem := s.admitMem n, held := insertNat n s.held } := by
  rw [State.admitMem, ← admitCell_eq]

/-- The state byte of an admitted cell written again, whatever has changed beside memory. -/
theorem writeCellState_of_admitMem {b : Byte} (h : x.mem = s.admitMem n) :
    x.writeCellState n b = { x with mem := s.takenMem n b } := by
  rw [State.takenMem]
  rw [State.admitMem] at h
  unfold State.writeCellState State.writeByte
  rw [h]

/-- What a motion order's visit writes into its cell where the order is queued. -/
theorem admitMem_reads (h : s.memoryWf = true) (hn : n < 480) (ht : t.mem = s.admitMem n) :
    t.readByte (0x800 + 64 * n) = 2 ∧ t.resultReads n 0 0 0 0 0 ∧ s.writesOnly t n := by
  rw [State.admitMem] at ht
  obtain ⟨h1, h2⟩ := admitCell_reads (b := admittedByte) h hn
  exact ⟨(readByte_of_mem ht _).trans h1, resultReads_of_mem ht h2, writesOnly_of_mem ht (writesOnly_admitCell _ _)⟩

/-- What a motion order's visit writes into its cell where the order waits or begins. -/
theorem takenMem_reads {b : Byte} (h : s.memoryWf = true) (hn : n < 480) (ht : t.mem = s.takenMem n b) :
    t.readByte (0x800 + 64 * n) = b ∧ t.resultReads n 0 0 0 0 0 ∧ s.writesOnly t n := by
  rw [State.takenMem] at ht
  exact ⟨(readByte_of_mem ht _).trans (writeCellState_reads (memoryWf_admitCell h) hn),
    resultReads_of_mem ht (resultReads_writeCellState (admitCell_reads h hn).2),
    writesOnly_of_mem ht (writesOnly_writeCellState (writesOnly_admitCell _ _))⟩

/-! ### A motion order admitted (R37) -/

/-- A motion order in the list of its axis, before the axis settles (R37, R44). -/
def State.queued (s : State) (n : Nat) (ax : AxisIx) (e : Entry) : State :=
  { s with mem := s.admitMem n, held := insertNat n s.held }.setAxis ax
    { s.axis ax with list := (s.axis ax).list ++ [e] }

/-- The walk past a cell that was admitted. -/
def State.walkOn (s : State) (w : Walk) (c : CellWords) : State :=
  { s with walk := some (w.countAdmitted c.postLink), visitRead := [] }

/-- The visit of a motion order queues it and settles its axis. -/
theorem exec_visit_motion {k : MotionKind} (ho : s.offeredAt w) (hd : s.decides w = .motion k ax) :
    exec (.cellVisit r) s = .next (s.close r
      (((s.queued w.at_ ax (entryOf w.at_ k (s.cellWords w.at_))).settle ax).walkOn w (s.cellWords w.at_))) := by
  have hm : s.admitMotion w.at_ k ax (s.cellWords w.at_)
      = (s.queued w.at_ ax (entryOf w.at_ k (s.cellWords w.at_))).settle ax := by
    have hq : (s.admitCell w.at_ admittedByte).updAxis ax
        (fun a => { a with list := a.list ++ [entryOf w.at_ k (s.cellWords w.at_)] })
        = s.queued w.at_ ax (entryOf w.at_ k (s.cellWords w.at_)) := by
      rw [admitCell_admitMem]
      rfl
    rw [← hq]
    rfl
  rw [exec_cellVisit ho, visit_of_decides ho hd]
  dsimp only [State.applyVerdict, State.walkOn]
  rw [hm]

/-! ### A head made to wait, or begun -/

/-- The entry of an order that starts: ACTIVE, no fly outcome, its deadline armed, its duration loaded (R50, R56,
R66). -/
def Entry.started (e : Entry) : Entry :=
  { e with
    status := .active, bound := false, fly := .none, decided := false, newSpeed := none, elapsed := 0
    dwellLeft := if e.kind = .dwell then e.params.p1.toNat else 0
    deadlineTimer := if e.opts.deadline then some e.deadline else none }

/-- The head of an axis begun: its cell ACTIVE, the axis RUNNING (R50). -/
def State.begun (s : State) (ax : AxisIx) (e : Entry) : State :=
  ((s.writeCellState e.cell activeByte).updHead ax (fun _ => e.started)).setAxisState ax .running .none

/-- What its kind makes of a head that has begun: its start checks and its start (R50). -/
def State.startKind (s : State) (ax : AxisIx) (e : Entry) : State :=
  match e.kind with
  | .moveAbs | .moveRel => s.startMove ax e.started
  | .jog => s.startJog ax e.started
  | .dwell => if e.params.p1.toNat = 0 then s.finishHead ax .completed else s
  | .reference => s.startReference ax e.started

/-- A head that starts: begun, then what its kind makes of it (R50). -/
theorem startOrder_eq (h : s.head? ax = some e) : s.startOrder ax = (s.begun ax e).startKind ax e := by
  unfold State.startOrder
  rw [h]
  rfl

/-- An axis whose only order has begun. -/
def Axis.begunWith (a : Axis) (e : Entry) : Axis := { a with list := [e.started], state := .running, stopCause := .none }

/-- A visited motion order, its state byte written again and its axis replaced. -/
def State.taken (s : State) (n : Nat) (b : Byte) (ax : AxisIx) (a : Axis) : State :=
  { s with mem := s.takenMem n b, held := insertNat n s.held }.setAxis ax a

/-- The only order of an axis begun in the visit that admits it. -/
theorem begun_queued (hn : e.cell = n) (hl : (s.axis ax).list = []) :
    (s.queued n ax e).begun ax e = s.taken n activeByte ax ((s.axis ax).begunWith e) := by
  unfold State.begun State.taken
  rw [hn, writeCellState_of_admitMem (s := s) (n := n) rfl]
  unfold State.queued
  rw [hl]
  show (({ s with mem := s.takenMem n activeByte, held := insertNat n s.held }.setAxis ax
    { s.axis ax with list := [e] }).updHead ax _).setAxisState ax .running .none = _
  rw [updHead_setAxis (es := []) _ (e := e) rfl, setAxisState_setAxis]
  rfl

theorem queued_head? (hl : (s.axis ax).list = []) : (s.queued n ax e).head? ax = some e := by
  unfold State.queued
  rw [head?_setAxis, hl]
  rfl

theorem queued_axis : (s.queued n ax e).axis ax = { s.axis ax with list := (s.axis ax).list ++ [e] } :=
  axis_setAxis_same _ _ _

/-- A GATED head at a closed gate waits (R49, R128). -/
theorem startDue_wait (h : s.head? ax = some e) (hg : e.opts.gated = true) (hc : s.gateOpen e.gate = false) :
    s.startDue ax = { (((s.updHead ax (fun e => { e with status := .waiting, bound := false })).setAxisState ax
      .waiting .none).writeCellState e.cell waitingByte) with waiting := s.waiting ++ [(e.gate, ax)] } := by
  unfold State.startDue
  rw [h]
  simp only [hg, hc, Bool.not_true, Bool.false_eq_true, if_false]
  rfl

/-- A head that is not GATED starts. -/
theorem startDue_ungated (h : s.head? ax = some e) (hg : e.opts.gated = false) : s.startDue ax = s.startOrder ax := by
  unfold State.startDue
  rw [h]
  simp only [hg, Bool.not_false, if_true]

/-- A GATED head at an open gate claims it and starts (R128). -/
theorem startDue_granted (h : s.head? ax = some e) (hg : e.opts.gated = true) (ho : s.gateOpen e.gate = true) :
    s.startDue ax = (s.grantClaim e).startOrder ax := by
  unfold State.startDue
  rw [h]
  simp only [hg, ho, Bool.not_true, Bool.false_eq_true, if_false, if_true]

end Sys2Proof.Machine
end

section
/-!
The visit of a motion order: queued behind others, waiting at its gate, or begun (R37, R49, R50, R128).
-/

open Sys2Proof Sys2Proof.Machine

namespace Sys2Proof.Machine

variable {s t x : State} {r : Race} {w : Walk} {ax j : AxisIx} {a : Axis} {n : Nat} {e : Entry} {c : CellWords}
  {b : Byte} {g : Vector Bool 16} {q : List (Fin 16 × AxisIx)}

/-- An axis replaced in a quiet state, whose assignment is not due. -/
theorem quiet_setAxis (h : s.quiet = true) (ha : a.ref.assignDue = false) (hg : t.agenda = s.agenda)
    (hm : t.modState = s.modState) (hx : t.axes = (s.setAxis ax a).axes) : t.quiet = true := by
  refine quiet_congr hg hm (fun j => ?_) h
  have hj : t.axis j = (s.setAxis ax a).axis j := by simp only [State.axis, hx]
  by_cases k : j = ax
  · subst k
    rw [hj, axis_setAxis_same, ha, (quiet_iff.1 h).2.1 j]
  · rw [hj, axis_setAxis_other _ _ k]

/-- A visited motion order that waits or begins, with gates and waiting records as given. -/
def State.takenAs (s : State) (n : Nat) (b : Byte) (ax : AxisIx) (a : Axis) (g : Vector Bool 16)
    (q : List (Fin 16 × AxisIx)) : State :=
  { s.taken n b ax a with gates := g, waiting := q }

theorem takenAs_axis_same : ((s.takenAs n b ax a g q).walkOn w c).axis ax = a := Quad.get_set_same _ _ _

theorem takenAs_axis_other (h : j ≠ ax) : ((s.takenAs n b ax a g q).walkOn w c).axis j = s.axis j :=
  Quad.get_set_other _ _ h

/-- What such a visit reads back, writes and holds. -/
theorem takenAs_reads (h : s.memoryWf = true) (hn : n < 480) (ht : t = (s.takenAs n b ax a g q).walkOn w c) :
    t.readByte (0x800 + 64 * n) = b ∧ t.resultReads n 0 0 0 0 0 ∧ s.writesOnly t n ∧ s.holdsToo t n := by
  obtain ⟨h1, h2, h3⟩ := takenMem_reads (t := t) (b := b) h hn (by rw [ht]; rfl)
  exact ⟨h1, h2, h3, holdsToo_insertNat (by rw [ht]; rfl)⟩

/-- Nothing follows such a visit. -/
theorem exec_visit_taken {k : MotionKind} (hq : s.quiet = true) (ho : s.offeredAt w)
    (hd : s.decides w = .motion k ax) (he : e = entryOf w.at_ k (s.cellWords w.at_)) (ha : a.ref.assignDue = false)
    (hs : (s.queued w.at_ ax e).settle ax = s.takenAs w.at_ b ax a g q) :
    exec (.cellVisit r) s = .next ((s.takenAs w.at_ b ax a g q).walkOn w (s.cellWords w.at_)) := by
  rw [exec_visit_motion ho hd, ← he, hs]
  exact congrArg _ (close_of_quiet (quiet_setAxis (a := a) (ax := ax) hq ha rfl rfl rfl) (Nat.le_succ _))

/-- The list of an axis that waits at a gate: its head, WAITING. -/
def Axis.waitsWith (a : Axis) (e : Entry) : Axis :=
  { a with list := [{ e with status := .waiting, bound := false }], state := .waiting, stopCause := .none }

/-- The only order of an IDLE axis, GATED at a closed gate, waits (R128). -/
theorem settle_queued_wait (hn : e.cell = n) (hi : (s.axis ax).state = .idle) (hl : (s.axis ax).list = [])
    (hg : e.opts.gated = true) (hc : s.gateOpen e.gate = false) :
    (s.queued n ax e).settle ax
      = s.takenAs n waitingByte ax ((s.axis ax).waitsWith e) s.gates (s.waiting ++ [(e.gate, ax)]) := by
  have hd : (s.queued n ax e).startDue ax
      = s.takenAs n waitingByte ax ((s.axis ax).waitsWith e) s.gates (s.waiting ++ [(e.gate, ax)]) := by
    rw [startDue_wait (queued_head? hl) hg hc, hn]
    unfold State.queued
    rw [hl, updHead_setAxis (es := []) (e := e) _ rfl, setAxisState_setAxis, writeCellState_of_admitMem (s := s) rfl]
    rfl
  have ha : ((s.queued n ax e).startDue ax).axis ax = (s.axis ax).waitsWith e := by
    rw [hd]
    exact Quad.get_set_same _ _ _
  rw [settle_start (by rw [queued_axis]; exact hi) (by rw [queued_axis]; simp) (.inl (by rw [ha]; simp [Axis.waitsWith])),
    hd]

/-- The claim of an order at an open gate leaves everything but the gate. -/
theorem grantClaim_eq : s.grantClaim e = { s with gates := if e.opts.observe then s.gates else s.gates.set e.gate false } := by
  unfold State.grantClaim State.setGate
  split <;> rfl

/-- The only order of an IDLE axis, a DWELL of some length that is not held up at its gate, begins (R50, R56, R128). -/
theorem settle_queued_dwell (hn : e.cell = n) (hi : (s.axis ax).state = .idle) (hl : (s.axis ax).list = [])
    (hk : e.kind = .dwell) (hp : e.params.p1.toNat ≠ 0) (hg : e.opts.gated = true → s.gateOpen e.gate = true) :
    (s.queued n ax e).settle ax = s.takenAs n activeByte ax ((s.axis ax).begunWith e)
      (if e.opts.gated && !e.opts.observe then s.gates.set e.gate false else s.gates) s.waiting := by
  have hb := begun_queued (e := e) hn hl
  have hd : (s.queued n ax e).startDue ax = s.takenAs n activeByte ax ((s.axis ax).begunWith e)
      (if e.opts.gated && !e.opts.observe then s.gates.set e.gate false else s.gates) s.waiting := by
    cases hgt : e.opts.gated with
    | false =>
        rw [startDue_ungated (queued_head? hl) hgt, startOrder_eq (queued_head? hl), State.startKind, hk]
        dsimp only
        rw [if_neg hp, hb]
        rfl
    | true =>
        have hh : ((s.queued n ax e).grantClaim e).head? ax = some e := by
          rw [grantClaim_eq]
          exact queued_head? hl
        have hbg : ((s.queued n ax e).grantClaim e).begun ax e = { (s.queued n ax e).begun ax e with
            gates := if e.opts.observe then s.gates else s.gates.set e.gate false } := by
          rw [grantClaim_eq]
          rfl
        rw [startDue_granted (queued_head? hl) hgt (hg hgt), startOrder_eq hh, State.startKind, hk]
        dsimp only
        rw [if_neg hp, hbg, hb]
        cases e.opts.observe <;> rfl
  have ha : ((s.queued n ax e).startDue ax).axis ax = (s.axis ax).begunWith e := by
    rw [hd]
    exact Quad.get_set_same _ _ _
  rw [settle_start (by rw [queued_axis]; exact hi) (by rw [queued_axis]; simp) (.inl (by rw [ha]; simp [Axis.begunWith])),
    hd]

/-- Settles O21: behind other orders the entry only joins the list; the only order of an IDLE axis waits or begins. -/
theorem visitQueuesOrder : Obligations.VisitQueuesOrder := by
  refine ⟨fun s w r k ax hm hq ho hd hi => ?_, fun s w r k ax e hm hq ho hd hi hl he hc => ?_⟩
  · have hs : (s.queued w.at_ ax (entryOf w.at_ k (s.cellWords w.at_))).settle ax
        = s.queued w.at_ ax (entryOf w.at_ k (s.cellWords w.at_)) :=
      settle_eq_self (.inl (by rw [queued_axis]; exact hi))
    obtain ⟨h1, h2, h3⟩ := admitMem_reads (s := s)
      (t := (s.queued w.at_ ax (entryOf w.at_ k (s.cellWords w.at_))).walkOn w (s.cellWords w.at_)) hm ho.2.1 rfl
    have ha : ({ s.axis ax with list := (s.axis ax).list ++ [entryOf w.at_ k (s.cellWords w.at_)] } : Axis).ref.assignDue
        = false := (quiet_iff.1 hq).2.1 ax
    refine ⟨_, ?_, h1, h2, h3, holdsToo_insertNat rfl, queued_axis, fun j hj => Quad.get_set_other _ _ hj, rfl, rfl⟩
    rw [exec_visit_motion ho hd, hs]
    exact congrArg _ (close_of_quiet (quiet_setAxis (ax := ax) hq ha rfl rfl rfl) (Nat.le_succ _))
  · have ha := (quiet_iff.1 hq).2.1 ax
    have hn : e.cell = w.at_ := by rw [he]; rfl
    by_cases hg : e.opts.gated = true ∧ s.gateOpen e.gate = false
    · have hx := exec_visit_taken (r := r) (a := (s.axis ax).waitsWith e) hq ho hd he ha
        (settle_queued_wait hn hi hl hg.1 hg.2)
      obtain ⟨h1, h2, h3, h4⟩ := takenAs_reads hm ho.2.1 rfl
      refine ⟨_, hx, h2, h3, h4, ?_, ?_, fun j hj => takenAs_axis_other hj, rfl, rfl, fun _ => ⟨h1, ?_, ?_, rfl, rfl⟩,
        fun k => absurd hg k⟩
      all_goals rw [takenAs_axis_same]
      all_goals simp [Axis.waitsWith, he, entryOf]
    · obtain ⟨hk, hp, hgo⟩ := hc.resolve_left hg
      have hp' : e.params.p1.toNat ≠ 0 := fun h => hp (BitVec.eq_of_toNat_eq h)
      have hx := exec_visit_taken (r := r) (a := (s.axis ax).begunWith e) hq ho hd he ha
        (settle_queued_dwell hn hi hl (by rw [he]; exact hk) hp' hgo)
      obtain ⟨h1, h2, h3, h4⟩ := takenAs_reads hm ho.2.1 rfl
      refine ⟨_, hx, h2, h3, h4, ?_, ?_, fun j hj => takenAs_axis_other hj, rfl, rfl, fun k => absurd k hg,
        fun _ => ⟨h1, ?_, ?_, by rw [he]; rfl, rfl⟩⟩
      all_goals rw [takenAs_axis_same]
      all_goals simp [Axis.begunWith, Entry.started, he, entryOf, hk]

end Sys2Proof.Machine
end

section
/-!
Orders that end, told on one axis replaced: standstill, the end of a head, what a fault makes of an axis with one order
(R10, R45, R69, R72, R90, R151, R163).
-/

open Sys2Proof Sys2Proof.Machine

namespace Sys2Proof.Machine

variable {s t x : State} {ax j : AxisIx} {a : Axis} {n : Nat} {e : Entry} {es : List Entry} {q : Result} {b : Bool}

/-! ### Reports that no watch observes (R114) -/

theorem report_of_unwatched {u : Quantity} {v : Sample} (h : s.unwatched u = true) : s.report u v = s := by
  have hf : s.watches.filter (fun w => w.quantity == u) = [] := by
    simp only [State.unwatched, List.all_eq_true, bne_iff_ne, ne_eq] at h
    simpa [List.filter_eq_nil_iff] using h
  unfold State.report State.addJobs
  rw [hf, List.map_nil, List.append_nil]

theorem unwatched_of_none {u : Quantity} (h : s.watches = []) : s.unwatched u = true := by
  simp [State.unwatched, h]

theorem setSpeed_setAxis {sq : Nat} {acc : Int} {ph : RampPhase} (h : x.watches = []) :
    (x.setAxis ax a).setSpeed ax sq acc ph
      = x.setAxis ax { a with prof := { a.prof with speedSq := sq, accel := acc, phase := ph } } := by
  unfold State.setSpeed State.updProf
  dsimp only
  rw [updAxis_setAxis, report_of_unwatched (unwatched_of_none (s := x.setAxis ax _) h), ite_self]

/-- An axis brought to standstill (R72, R84, R90). -/
def Axis.stood (a : Axis) : Axis :=
  if a.moving then
    { a with
      prof := { a.prof with plan := none, pendingReplan := false, speedSq := 0, accel := 0, phase := .standing }
      seen := { a.seen with limit := false, ready := false } }
  else { a with prof := { a.prof with plan := none, pendingReplan := false } }

theorem stood_eq : a.stood = { a with prof := a.stood.prof, seen := a.stood.seen } := by
  unfold Axis.stood
  split <;> rfl

theorem stood_commanded : a.stood.commanded = a.commanded := by rw [stood_eq]

theorem stood_feedback : a.stood.feedback = a.feedback := by rw [stood_eq]

theorem stand_setAxis (h : x.watches = [] ∨ a.moving = false) :
    (x.setAxis ax a).stand ax = x.setAxis ax a.stood := by
  unfold State.stand Axis.stood
  rw [axis_setAxis_same]
  by_cases hm : a.moving = true
  · rw [if_pos hm, if_pos hm, updAxis_setAxis]
    exact setSpeed_setAxis (h.resolve_right (by simp [hm]))
  · rw [if_neg hm, if_neg hm]
    exact updAxis_setAxis _

theorem stood_moving : a.stood.moving = false := by
  unfold Axis.stood
  split
  · rfl
  · rename_i h
    simpa [Axis.moving] using h

/-! ### The memory of a cell that ends -/

theorem writeWords_mem_congr : ∀ (ws : List (Nat × Word)) {s t : State}, t.mem = s.mem →
    (t.writeWords ws).mem = (s.writeWords ws).mem
  | [], _, _, h => h
  | v :: ws, _, _, h => writeWords_mem_congr ws (s := State.writeWord _ v.1 v.2) (t := State.writeWord _ v.1 v.2)
      (by unfold State.writeWord State.writeHalf State.writeByte; rw [h])

theorem writeReturnLink_mem_congr {l : Nat} (h : t.mem = s.mem) :
    (t.writeReturnLink n l).mem = (s.writeReturnLink n l).mem := by
  unfold State.writeReturnLink State.writeHalf State.writeByte
  rw [h]

theorem linkTail_mem_congr (h : t.mem = s.mem) (hc : t.chain = s.chain) : (t.linkTail n).mem = (s.linkTail n).mem := by
  unfold State.linkTail
  rw [hc]
  split
  · exact h
  · exact writeReturnLink_mem_congr h

/-- What a cell's end makes of memory hangs on memory and the chain alone. -/
theorem endCell_mem_congr {b' : Bool} (h : t.mem = s.mem) (hc : t.chain = s.chain) :
    (t.endCell n q b).mem = (s.endCell n q b').mem := by
  have hw : ((t.writeResult n q).writeCellState n endedByte).mem = ((s.writeResult n q).writeCellState n endedByte).mem := by
    unfold State.writeCellState State.writeByte State.writeResult
    rw [writeWords_mem_congr _ h]
  have hchain : ∀ {u : State}, ((u.writeResult n q).writeCellState n endedByte).chain = u.chain := by
    intro u; rw [writeResult_eq]; rfl
  unfold State.endCell
  rw [linkCell_mem, linkCell_mem]
  have hlink : ∀ {u : State} {l : Nat}, (u.writeReturnLink n l).chain = u.chain := rfl
  exact linkTail_mem_congr (writeReturnLink_mem_congr hw) (by rw [hlink, hlink, hchain, hchain, hc])

/-- The memory of a state in which a cell has ended. -/
@[irreducible] def State.endMem (s : State) (n : Nat) (q : Result) : List Host.Cell := (s.endCell n q false).mem

/-- A state in which a cell has ended and is linked (R10, R151). -/
def State.ended (s : State) (n : Nat) (q : Result) (b : Bool) : State :=
  { s with
    mem := s.endMem n q, chain := s.chain ++ [n], causes := { s.causes with ret := s.causes.ret || b } }

theorem endCell_eq_ended : s.endCell n q b = s.ended n q b := by
  unfold State.ended
  rw [State.endMem, ← endCell_mem_congr (b := b) (t := s) rfl rfl, ← endCell_eq]

theorem endCell_setAxis : (x.setAxis ax a).endCell n q b = (x.ended n q b).setAxis ax a := by
  rw [endCell_eq_ended]
  unfold State.ended
  rw [State.endMem, State.endMem, endCell_mem_congr (s := x) (t := x.setAxis ax a) (b' := false) rfl rfl]
  rfl

/-- What is read where a cell has ended. -/
theorem endMem_reads (h : s.memoryWf = true) (hn : n < 480) (ht : t.mem = s.endMem n q) :
    t.endReads n q.codeWord (BitVec.ofNat 32 q.fires) q.cmd q.fb (BitVec.ofNat 32 q.elapsed) := by
  rw [State.endMem] at ht
  exact endReads_of_mem ht (endCell_endReads h hn)

theorem endMem_resultReads (h : s.memoryWf = true) (hn : n < 480) (ht : t.mem = s.endMem n q)
    (hc : ∀ tail, s.chain.getLast? = some tail → tail ≠ n) :
    t.resultReads n q.codeWord (BitVec.ofNat 32 q.fires) q.cmd q.fb (BitVec.ofNat 32 q.elapsed) := by
  rw [State.endMem] at ht
  exact resultReads_of_mem ht (endCell_resultReads h hn hc)

theorem endMem_other {k : Nat} (ht : t.mem = s.endMem n q) (hk : ¬ mayWrite s n k) : t.readByte k = s.readByte k := by
  rw [State.endMem] at ht
  exact (readByte_of_mem ht k).trans (readByte_endCell_other hk)

/-! ### The end of a head (R45) -/

/-- What the end of an ACTIVE head leaves of its axis (R45, R109). -/
def Axis.headEnded (a : Axis) (e : Entry) (es : List Entry) (code : EndCode) : Axis :=
  { a with
    list := es
    ref := if e.kind = .reference then a.ref.afterRun else a.ref
    referenced := if e.kind = .reference ∧ (code = .stopped ∨ code = .faulted) then false else a.referenced }

/-- The state in which a head's cell has ended. -/
def State.headEnded (s : State) (a : Axis) (e : Entry) (code : EndCode) (reason : Nat) : State :=
  s.ended e.cell (endResult a e code reason) e.opts.notify

theorem endHead_setAxis {code : EndCode} {reason : Nat} (hl : a.list = e :: es) (hs : e.status = .active) :
    (x.setAxis ax a).endHead ax code reason = (x.headEnded a e code reason).setAxis ax (a.headEnded e es code) := by
  unfold State.endHead
  rw [axis_setAxis_same, hl]
  dsimp only
  have hw : ¬ e.status = .waiting := by rw [hs]; decide
  rw [if_neg hw, updAxis_setAxis]
  unfold State.endEntry
  rw [endCell_setAxis, axis_setAxis_same]
  simp only [hs, decide_true, Bool.and_true, Bool.and_eq_true, Bool.or_eq_true, decide_eq_true_eq]
  rfl

/-- An ACTIVE head ends at standstill (R45, R47). -/
theorem finishHead_setAxis {code : EndCode} (hw : x.watches = [] ∨ a.moving = false) (hl : a.list = e :: es)
    (hs : e.status = .active) :
    (x.setAxis ax a).finishHead ax code = (x.headEnded a e code 0).setAxis ax
      { a.stood.headEnded e es code with state := .idle, stopCause := .none } := by
  have hl' : a.stood.list = e :: es := by rw [stood_eq, hl]
  have hr : endResult a.stood e code 0 = endResult a e code 0 := by
    unfold endResult
    rw [stood_eq]
  unfold State.finishHead
  rw [stand_setAxis hw, endHead_setAxis hl' hs, setAxisState_setAxis]
  unfold State.headEnded
  rw [hr]

/-! ### Flushes of lists with nothing to flush -/

theorem flushAll_setAxis_nil (h : a.list = []) : (x.setAxis ax a).flushAll ax = x.setAxis ax a := by
  unfold State.flushAll
  have ha : ({ a with list := [] } : Axis) = a := by rw [← h]
  rw [axis_setAxis_same, updAxis_setAxis, h, ha]
  rfl

theorem dropBinding_setAxis_single (h : a.list = [e]) : (x.setAxis ax a).dropBinding ax = x.setAxis ax a := by
  unfold State.dropBinding
  rw [axis_setAxis_same, h]

/-! ### The first fault of a standing axis with one order (R69, R163) -/

/-- A fault recorded that is the first of its scope (R160). -/
def State.faulted (s : State) (sc : Scope) (code detail cell : Nat) : State :=
  { s with
    faults := s.faults ++ [{ scope := sc, code := code, detail := detail, cell := cell, time := s.clock, count := 1,
                             lastCode := code }]
    causes := { s.causes with fault := true } }

theorem recordFault_first {sc : Scope} {code detail cell : Nat} (h : s.faultEntry sc = none) :
    s.recordFault sc code detail cell = s.faulted sc code detail cell := by
  unfold State.recordFault
  rw [h]
  rfl

/-- What the first fault makes of a standing axis whose one order is ACTIVE. -/
def Axis.faultEnded (a : Axis) (e : Entry) : Axis :=
  { a.stood with
    list := [], state := .faulted, stopCause := .fault, pendingFault := false
    ref := if e.kind = .reference then a.ref.afterRun else a.ref
    referenced := if e.kind = .reference then false else a.referenced }

/-- The first fault of a standing axis: recorded, its one order ended FAULTED, the axis FAULTED at once. -/
theorem axisFault_standing {code detail : Nat} {reaction : Reaction} (hf : x.faultEntry (.axis ax) = none)
    (hm : a.moving = false) (hl : a.list = [e]) (hs : e.status = .active) (hr : a.state = .running) :
    (x.setAxis ax a).axisFault ax code detail reaction =
      ((x.faulted (.axis ax) code detail e.cell).headEnded a e .faulted code).setAxis ax (a.faultEnded e) := by
  have hcell : a.reportCell = e.cell := by
    unfold Axis.reportCell
    rw [hl]
    simp [hs]
  have hst : (a.headEnded e [] .faulted).stood.list = [] := by rw [stood_eq]; rfl
  have hfin : ∀ {y : State}, (y.setAxis ax (a.headEnded e [] .faulted)).becomeFaulted ax = y.setAxis ax (a.faultEnded e) := by
    intro y
    unfold State.becomeFaulted
    rw [stand_setAxis (.inr (show (a.headEnded e [] .faulted).moving = false from hm))]
    dsimp only
    rw [updAxis_setAxis, flushAll_setAxis_nil (by exact hst)]
    congr 1
    have hm' : (a.headEnded e [] .faulted).moving = false := hm
    unfold Axis.faultEnded Axis.stood
    rw [hm, hm']
    simp [Axis.headEnded]
  have hrec : (x.setAxis ax a).recordFault (.axis ax) code detail e.cell
      = (x.faulted (.axis ax) code detail e.cell).setAxis ax a := recordFault_first hf
  unfold State.axisFault State.react
  rw [axis_setAxis_same, hcell, hrec, axis_setAxis_same, hr]
  unfold State.firstFault State.faultList
  dsimp only
  rw [axis_setAxis_same, hm, hl, dropBinding_setAxis_single hl]
  simp only [List.head?_cons, hs, reduceCtorEq, if_false, Bool.false_and, Bool.false_eq_true]
  rw [endHead_setAxis hl hs, flushAll_setAxis_nil rfl, hfin]

end Sys2Proof.Machine
end

section
/-!
Orders that fail their start checks (R50, R51, R69, R97 to R110).
-/

open Sys2Proof Sys2Proof.Machine

namespace Sys2Proof.Machine

variable {s t x : State} {r : Race} {w : Walk} {ax j : AxisIx} {a : Axis} {n : Nat} {e : Entry} {q : Result} {b : Byte}

/-- No cell of the chain is offered. -/
theorem tail_ne_offered {tail : Nat} (hs : s.onePlace) (hn : n ∉ s.held) (ht : s.chain.getLast? = some tail) :
    tail ≠ n := by
  rintro rfl
  exact hn (hs.2.1 _ (List.mem_append_right _ (List.mem_of_getLast? ht)))

theorem memoryWf_of_takenMem (h : s.memoryWf = true) (ht : t.mem = s.takenMem n b) : t.memoryWf = true := by
  rw [State.takenMem] at ht
  have hc : ((s.admitCell n admittedByte).writeCellState n b).memoryWf = true := memoryWf_writeByte (memoryWf_admitCell h)
  unfold State.memoryWf at hc ⊢
  rw [ht]
  exact hc

/-- What is read where an order ends in the visit that admits it. -/
theorem takenEnd_reads (h : s.memoryWf = true) (hs : s.onePlace) (hn : n < 480) (hh : n ∉ s.held)
    (hx : x.mem = s.takenMem n b) (hc : x.chain = s.chain) (ht : t.mem = x.endMem n q) :
    t.readByte (0x800 + 64 * n) = 6 ∧
    t.resultReads n q.codeWord (BitVec.ofNat 32 q.fires) q.cmd q.fb (BitVec.ofNat 32 q.elapsed) ∧
    ∀ k, ¬ mayWrite s n k → t.readByte k = s.readByte k := by
  have hwf := memoryWf_of_takenMem h hx
  refine ⟨(endMem_reads hwf hn ht).1, endMem_resultReads hwf hn ht fun tail hl => ?_, fun k hk => ?_⟩
  · rw [hc] at hl
    exact tail_ne_offered hs hh hl
  · have hk' : ¬ mayWrite x n k := by
      unfold mayWrite at hk ⊢
      rw [hc]
      exact hk
    exact (endMem_other ht hk').trans ((takenMem_reads h hn hx).2.2 k fun hp => hk (hp.imp id .inl))

/-! ### Start checks that fail -/

theorem limitFault_setAxis {d : Dir} (hm : a.moving = false) : (x.setAxis ax a).limitFault ax d
    = (x.setAxis ax a).axisFault ax faultLimitSwitch d.limitDetail a.setup.limitReaction := by
  unfold State.limitFault
  dsimp only
  rw [axis_setAxis_same, hm, if_neg (by decide), axis_setAxis_same]

/-- The start of a MOVE_ABS or MOVE_REL, its checks in their order (R50). -/
theorem startMove_setAxis {target : Int} {d : Dir} (hm : a.moving = false)
    (ht : target = e.targetFrom a.setup a.commanded.toInt) (hd : d = e.dirFrom a.commanded.toInt target) :
    (x.setAxis ax a).startMove ax e =
      if a.readyActive = false then (x.setAxis ax a).axisFault ax faultDriveNotReady 0 .abrupt
      else if target ≠ a.commanded.toInt ∧ a.limitActive d = true then
        (x.setAxis ax a).axisFault ax faultLimitSwitch d.limitDetail a.setup.limitReaction
      else match windowFails a.setup e.kind target with
        | some detail => (x.setAxis ax a).axisFault ax faultWindowTarget detail a.setup.limitReaction
        | none =>
            if e.kind = .moveAbs ∧ a.setup.requireRef = true ∧ a.referenced = false then
              (x.setAxis ax a).axisFault ax faultNotReferenced 0 a.setup.limitReaction
            else if target = a.commanded.toInt then (x.setAxis ax a).finishHead ax .completed
            else (x.setAxis ax a).startMoving ax target d := by
  unfold State.startMove
  dsimp only
  rw [axis_setAxis_same, ← ht, ← hd, limitFault_setAxis hm]
  simp only [Bool.not_eq_true', Bool.and_eq_true, decide_eq_true_eq, and_assoc]
  rfl

/-- The start of a JOG, its checks in their order (R50, R101). -/
theorem startJog_setAxis {d : Dir} (hm : a.moving = false) (hd : d = dirOfWord e.params.p1) :
    (x.setAxis ax a).startJog ax e =
      if a.readyActive = false then (x.setAxis ax a).axisFault ax faultDriveNotReady 0 .abrupt
      else if a.limitActive d = true then
        (x.setAxis ax a).axisFault ax faultLimitSwitch d.limitDetail a.setup.limitReaction
      else if beyond d a.commanded.toInt (jogEdge a.setup d) = false then (x.setAxis ax a).finishHead ax .limited
      else (x.setAxis ax a).startMoving ax (jogEdge a.setup d) d := by
  unfold State.startJog
  dsimp only
  rw [axis_setAxis_same, ← hd, limitFault_setAxis hm]
  simp only [Bool.not_eq_true']
  rfl

/-- Which window check fails (R99, R100). -/
theorem windowFails_eq (st : AxisSetup) (k : MotionKind) (target : Int) (detail : Nat)
    (h : (k = .moveRel ∧ (target < -2147483648 ∨ 2147483647 < target) ∧ detail = 3) ∨
      (-2147483648 ≤ target ∧ target ≤ 2147483647 ∧ st.windowEnable = true ∧
        ((st.windowHigh < target ∧ detail = 1) ∨
          (target ≤ st.windowHigh ∧ target < st.windowLow ∧ detail = 2)))) :
    windowFails st k target = some detail := by
  unfold windowFails minInt32 maxInt32
  rcases h with ⟨hk, ht, rfl⟩ | ⟨h1, h2, hw, h | h⟩
  · rw [if_pos (by simpa [hk] using ht)]
  · rw [if_neg (by simp; omega), if_pos (by simp [hw, h.1]), h.2]
  · rw [if_neg (by simp; omega), if_neg (by simp; omega), if_pos (by simp [hw, h.2.1]), h.2.2]

theorem windowFails_none (st : AxisSetup) (k : MotionKind) (target : Int) (h1 : -2147483648 ≤ target)
    (h2 : target ≤ 2147483647) (hw : st.windowEnable = true → st.windowLow ≤ target ∧ target ≤ st.windowHigh) :
    windowFails st k target = none := by
  have hh : ¬ (st.windowEnable = true ∧ st.windowHigh < target) := fun h => by have := hw h.1; omega
  have hl : ¬ (st.windowEnable = true ∧ target < st.windowLow) := fun h => by have := hw h.1; omega
  unfold windowFails minInt32 maxInt32
  rw [if_neg (by simp; omega), if_neg (by simpa using hh), if_neg (by simpa using hl)]

/-- The start check of an order that fails first: its code and its detail (R50, R99 to R104, R110). -/
def Axis.failsStart (a : Axis) (k : MotionKind) (target : Int) (d : Dir) (code detail : Nat) : Prop :=
  (k ≠ .dwell ∧ a.readyActive = false ∧ code = 206 ∧ detail = 0) ∨
    (a.readyActive = true ∧ (k = .jog ∨ (k.positional = true ∧ target ≠ a.commanded.toInt)) ∧
      a.limitActive d = true ∧ code = 201 ∧ detail = if d = .plus then 1 else 2) ∨
    (a.readyActive = true ∧ k.positional = true ∧ (target = a.commanded.toInt ∨ a.limitActive d = false) ∧
      ((code = 202 ∧ k = .moveRel ∧ (target < -2147483648 ∨ 2147483647 < target) ∧ detail = 3) ∨
        (-2147483648 ≤ target ∧ target ≤ 2147483647 ∧
          ((code = 202 ∧ a.setup.windowEnable = true ∧ a.setup.windowHigh < target ∧ detail = 1) ∨
            (code = 202 ∧ a.setup.windowEnable = true ∧ target ≤ a.setup.windowHigh ∧
              target < a.setup.windowLow ∧ detail = 2) ∨
            (code = 209 ∧ k = .moveAbs ∧ detail = 0 ∧ a.setup.requireRef = true ∧ a.referenced = false ∧
              (a.setup.windowEnable = true → a.setup.windowLow ≤ target ∧ target ≤ a.setup.windowHigh))))))

theorem limitDetail_eq (d : Dir) : d.limitDetail = if d = .plus then 1 else 2 := by cases d <;> rfl

/-- A MOVE_ABS or MOVE_REL that fails a start check is reported with it. -/
theorem startMove_fails {target : Int} {d : Dir} {code detail : Nat} (hm : a.moving = false)
    (ht : target = e.targetFrom a.setup a.commanded.toInt) (hd : d = e.dirFrom a.commanded.toInt target)
    (hk : e.kind ≠ .jog) (hc : a.failsStart e.kind target d code detail) :
    ∃ reaction, (x.setAxis ax a).startMove ax e = (x.setAxis ax a).axisFault ax code detail reaction := by
  rw [startMove_setAxis hm ht hd]
  rcases hc with ⟨-, hr, rfl, rfl⟩ | ⟨hr, hl, hla, rfl, rfl⟩ | ⟨hr, -, hl, hc⟩
  · exact ⟨.abrupt, by rw [if_pos hr]; rfl⟩
  · refine ⟨a.setup.limitReaction, ?_⟩
    rw [if_neg (by simp [hr]), if_pos ⟨(hl.resolve_left hk).2, hla⟩, limitDetail_eq]
    rfl
  · refine ⟨a.setup.limitReaction, ?_⟩
    have hl' : ¬ (target ≠ a.commanded.toInt ∧ a.limitActive d = true) := fun h => hl.elim h.1 (by simp [h.2])
    rw [if_neg (by simp [hr]), if_neg hl']
    rcases hc with ⟨rfl, hk, ht, rfl⟩ | ⟨h1, h2, ⟨rfl, hw, h, rfl⟩ | ⟨rfl, hw, h, h', rfl⟩ | ⟨rfl, hk, rfl, hq, hn, hw⟩⟩
    · rw [windowFails_eq _ _ _ 3 (.inl ⟨hk, ht, rfl⟩)]
      rfl
    · rw [windowFails_eq _ _ _ 1 (.inr ⟨h1, h2, hw, .inl ⟨h, rfl⟩⟩)]
      rfl
    · rw [windowFails_eq _ _ _ 2 (.inr ⟨h1, h2, hw, .inr ⟨h, h', rfl⟩⟩)]
      rfl
    · rw [windowFails_none _ _ _ h1 h2 hw]
      dsimp only
      rw [if_pos ⟨hk, hq, hn⟩]
      rfl

/-- A JOG that fails a start check is reported with it. -/
theorem startJog_fails {target : Int} {d : Dir} {code detail : Nat} (hm : a.moving = false)
    (hd : d = dirOfWord e.params.p1) (hc : a.failsStart .jog target d code detail) :
    ∃ reaction, (x.setAxis ax a).startJog ax e = (x.setAxis ax a).axisFault ax code detail reaction := by
  rw [startJog_setAxis hm hd]
  rcases hc with ⟨-, hr, rfl, rfl⟩ | ⟨hr, -, hla, rfl, rfl⟩ | ⟨-, hk, -⟩
  · exact ⟨.abrupt, by rw [if_pos hr]; rfl⟩
  · refine ⟨a.setup.limitReaction, ?_⟩
    rw [if_neg (by simp [hr]), if_pos hla, limitDetail_eq]
    rfl
  · cases hk

/-- An order begun on a standing axis that fails a start check is reported with it. -/
theorem startKind_fails {target : Int} {d : Dir} {code detail : Nat} (hm : a.moving = false)
    (ht : target = if e.kind = .moveAbs then e.params.p1.toInt else a.commanded.toInt + e.params.p1.toInt)
    (hd : d = if e.kind = .jog then dirOfWord e.params.p1 else dirTo a.commanded.toInt target)
    (hc : a.failsStart e.kind target d code detail) :
    ∃ reaction, (x.setAxis ax a).startKind ax e = (x.setAxis ax a).axisFault ax code detail reaction := by
  unfold State.startKind
  cases hk : e.kind with
  | moveAbs =>
      simp only [hk, if_true, reduceCtorEq, if_false] at ht hd
      exact startMove_fails (e := e.started) (target := target) (d := d) hm (by simp only [Entry.targetFrom, Entry.started, hk, ht])
        (by simp only [Entry.dirFrom, Entry.started, hk, hd, dirTo]) (by simp [Entry.started, hk])
        (by simpa only [Entry.started] using hc)
  | moveRel =>
      simp only [hk, reduceCtorEq, if_false] at ht hd
      exact startMove_fails (e := e.started) (target := target) (d := d) hm (by simp only [Entry.targetFrom, Entry.started, hk, ht])
        (by simp only [Entry.dirFrom, Entry.started, hk, hd, dirTo]) (by simp [Entry.started, hk])
        (by simpa only [Entry.started] using hc)
  | jog =>
      simp only [hk, if_true] at hd hc
      exact startJog_fails (e := e.started) hm hd hc
  | dwell =>
      rw [hk] at hc
      rcases hc with ⟨h, -⟩ | ⟨-, h | ⟨h, -⟩, -⟩ | ⟨-, h, -⟩
      · exact absurd rfl h
      all_goals cases h
  | reference =>
      rw [hk] at hc
      rcases hc with ⟨-, hr, rfl, rfl⟩ | ⟨-, h | ⟨h, -⟩, -⟩ | ⟨-, h, -⟩
      · refine ⟨.abrupt, ?_⟩
        unfold State.startReference
        dsimp only
        rw [axis_setAxis_same, hr]
        rfl
      all_goals cases h

/-- The only order of an IDLE axis, not GATED, begins and starts as its kind does. -/
theorem startDue_queued (hn : e.cell = n) (hl : (s.axis ax).list = []) (hg : e.opts.gated = false) :
    (s.queued n ax e).startDue ax = (s.taken n activeByte ax ((s.axis ax).begunWith e)).startKind ax e := by
  rw [startDue_ungated (queued_head? hl) hg, startOrder_eq (queued_head? hl), begun_queued hn hl]

/-- The axis of the only order begun settles with what its start makes of it. -/
theorem settle_queued {y : State} (hi : (s.axis ax).state = .idle) (hd : (s.queued n ax e).startDue ax = y)
    (hy : (y.axis ax).state ≠ .idle ∨ (y.axis ax).list = []) : (s.queued n ax e).settle ax = y := by
  rw [settle_start (by rw [queued_axis]; exact hi) (by rw [queued_axis]; simp) (by rw [hd]; exact hy), hd]

/-- The state of a visit whose order fails a start check. -/
def State.failedVisit (s : State) (n : Nat) (ax : AxisIx) (e : Entry) (code detail : Nat) : State :=
  ((State.faulted { s with mem := s.takenMem n activeByte, held := insertNat n s.held } (.axis ax) code detail
    n).headEnded ((s.axis ax).begunWith e) e.started .faulted code).setAxis ax
      (((s.axis ax).begunWith e).faultEnded e.started)

theorem faultResult_codeWord (a : Axis) (e : Entry) (code : Nat) :
    (endResult a e.started .faulted code).codeWord = bytes4 6 code 0 0 := by
  have hf : (endResult a e.started .faulted code).fly = .none := by
    unfold endResult
    dsimp only
    split <;> rfl
  unfold Result.codeWord
  rw [hf]
  rfl

/-- Settles O23: the first check that fails is reported, ends the order and faults the standing axis. -/
theorem startChecksFail : Obligations.StartChecksFail := by
  intro s w r k ax e a target d code detail hm hp hq hw hr ho hd ha hi hl hmv hf he hg ht hdir hc
  have hn : e.cell = w.at_ := by rw [he]; rfl
  have hk : e.kind = k := by rw [he]; rfl
  subst ha
  have hs : (s.queued w.at_ ax e).settle ax = s.failedVisit w.at_ ax e code detail := by
    obtain ⟨reaction, hx⟩ := startKind_fails (x := { s with mem := s.takenMem w.at_ activeByte, held := insertNat w.at_ s.held })
      (ax := ax) (a := (s.axis ax).begunWith e) (e := e) (target := target) (d := d) (code := code) (detail := detail)
      hmv (by rw [hk]; exact ht) (by rw [hk]; exact hdir)
      (by rw [hk]; exact hc)
    refine settle_queued hi ((startDue_queued hn hl hg).trans (hx.trans ?_)) (.inl ?_)
    · rw [axisFault_standing (x := { s with mem := s.takenMem w.at_ activeByte, held := insertNat w.at_ s.held })
        (a := (s.axis ax).begunWith e) (e := e.started) hf hmv rfl rfl rfl, ← hn]
      rfl
    · unfold State.failedVisit
      rw [axis_setAxis_same]
      exact AxisState.noConfusion
  have hdue : (((s.axis ax).begunWith e).faultEnded e.started).ref.assignDue = false := by
    have := (quiet_iff.1 hq).2.1 ax
    unfold Axis.faultEnded
    dsimp only
    split
    · rfl
    · exact this
  have hx : exec (.cellVisit r) s
      = .next ((s.failedVisit w.at_ ax e code detail).walkOn w (s.cellWords w.at_)) := by
    rw [exec_visit_motion ho hd, ← he, hs]
    exact congrArg _ (close_of_quiet (quiet_setAxis hq hdue rfl rfl rfl) (by simp [State.walkOn, State.failedVisit,
      State.headEnded, State.ended, State.setAxis, State.faulted]))
  obtain ⟨h1, h2, h3⟩ := takenEnd_reads (t := (s.failedVisit w.at_ ax e code detail).walkOn w (s.cellWords w.at_))
    hm hp ho.2.1 ho.2.2.1 (x := State.faulted { s with mem := s.takenMem w.at_ activeByte, held := insertNat w.at_ s.held }
      (.axis ax) code detail w.at_) (q := endResult ((s.axis ax).begunWith e) e.started .faulted code) rfl rfl
    (by rw [← hn]; rfl)
  have haxis : ((s.failedVisit w.at_ ax e code detail).walkOn w (s.cellWords w.at_)).axis ax
      = ((s.axis ax).begunWith e).faultEnded e.started := Quad.get_set_same _ _ _
  rw [faultResult_codeWord] at h2
  refine ⟨_, hx, h1, h2, h3, holdsToo_insertNat rfl, by rw [← hn]; rfl, ⟨rfl, rfl⟩, rfl, ?_, ?_, ?_, ?_, ?_, ?_, ?_, ?_, ?_,
    ?_, ?_, fun j hj => Quad.get_set_other _ _ hj, rfl, rfl⟩
  all_goals rw [haxis]
  · rfl
  · rfl
  · rfl
  · rfl
  · exact stood_moving
  · rfl
  · exact stood_commanded (a := (s.axis ax).begunWith e)
  · exact stood_feedback (a := (s.axis ax).begunWith e)
  · have hkd : e.started.kind = k := hk
    unfold Axis.faultEnded
    dsimp only
    rw [hkd]
    by_cases h : k = .reference
    · simp [h]
    · simp [h, Axis.begunWith]
  · unfold Axis.faultEnded Axis.stood
    dsimp only
    split <;> rfl
  · unfold Axis.faultEnded Axis.stood
    dsimp only
    split <;> rfl

end Sys2Proof.Machine
end

section
/-!
Orders that start: motion begun from standstill, plans, reference runs (R50, R52, R72, R76, R79, R101, R135).
-/

open Sys2Proof Sys2Proof.Machine

namespace Sys2Proof.Machine

variable {s t x : State} {r : Race} {w : Walk} {ax j : AxisIx} {a : Axis} {n : Nat} {e : Entry} {b : Byte}

/-! ### Plans -/

/-- A plan has the length it is made for, and begins at its start. -/
theorem plan_start (r : Rates) (u : Nat) (a0 : Int) (l v ev : Nat) (c : Bool) :
    (r.plan u a0 l v ev c).length = l ∧ (r.plan u a0 l v ev c).moved = 0 ∧ (r.plan u a0 l v ev c).startSq = u ∧
      (r.plan u a0 l v ev c).endSpeed = ev ∧ (r.plan u a0 l v ev c).form = r.form ∧
      (r.plan u a0 l v ev c).targetSpeed = v := by
  unfold Rates.plan
  dsimp only
  repeat' split
  all_goals exact ⟨rfl, rfl, rfl, rfl, rfl, rfl⟩

theorem linearLen_self (u rate : Nat) : linearLen u u rate = 0 := by
  have h : 0 < nano ^ 2 := by unfold nano; omega
  rcases Nat.eq_zero_or_pos rate with hr | hr <;> simp [linearLen, ceilDiv, hr, h]

/-- A LINEAR ramp between different speeds makes pulses. -/
theorem linearLen_pos {u v rate : Nat} (h : u ≠ v) (hr : 0 < rate) : 0 < linearLen u v rate := by
  unfold linearLen ceilDiv
  have hd : 0 < 2 * rate * nano ^ 2 := by unfold nano; omega
  exact Nat.div_pos (by omega) hd

/-- A LINEAR plan from the floor speed whose peak fits reports its edge only after its start (R79). -/
theorem assemble_reportAt_pos {r : Rates} {l v p : Nat} {c : Bool} (hf : r.form = .linear) (ha : 0 < r.acc)
    (hl : 0 < l) (hp : r.floor ≤ p) (h : r.fits (sqOf r.floor) 0 r.floor l p = true) :
    0 < (r.assemble (sqOf r.floor) r.floor l v c (r.ramp (sqOf r.floor) 0 p) (sqOf p) false).reportAt := by
  have hfit : (r.ramp (sqOf r.floor) 0 p).len + (r.ramp (sqOf p) 0 r.floor).len ≤ l := by
    simpa only [Rates.fits, decide_eq_true_eq] using h
  unfold Rates.assemble
  simp only [hfit, decide_true, Bool.true_or, Bool.not_false, Bool.and_self, if_true]
  have hle : sqOf r.floor ≤ sqOf p := sqOf_le_sqOf.2 hp
  rcases Nat.eq_or_lt_of_le hp with he | he
  · subst he
    have h0 : (r.ramp (sqOf r.floor) 0 r.floor).len = 0 := by
      simp [Rates.ramp, hf, linearRamp, linearLen_self]
    omega
  · have h1 : 0 < (r.ramp (sqOf r.floor) 0 p).len := by
      simp only [Rates.ramp, Rates.effSq, hf, if_pos hle, linearRamp]
      exact linearLen_pos (by have := sqOf_lt_sqOf.2 he; omega) ha
    omega

/-- A LINEAR plan from the floor speed reports its edge only after its start (R79). -/
theorem plan_reportAt_pos {r : Rates} {l v : Nat} {c : Bool} (hf : r.form = .linear) (ha : 0 < r.acc) (hl : 0 < l)
    (hv : r.floor ≤ v) : 0 < (r.plan (sqOf r.floor) 0 l v r.floor c).reportAt := by
  have heff : r.effSq (sqOf r.floor) 0 = sqOf r.floor := by simp [Rates.effSq, hf]
  have hnot : ¬ sqOf v < sqOf r.floor := by rw [sqOf_lt_sqOf]; omega
  unfold Rates.plan
  simp only [heff, hnot, if_false, Nat.lt_irrefl, hv, decide_true, Bool.and_true]
  split
  · rename_i h
    exact assemble_reportAt_pos hf ha hl hv h
  · split
    · rename_i p h
      unfold Rates.reducedPeak at h
      simp only [heff, max_self, Option.ite_none_right_eq_some, Option.some.injEq, Bool.and_eq_true,
        decide_eq_true_eq] at h
      obtain ⟨⟨h1, h2⟩, h3⟩ := h
      rw [h3] at h1 h2
      exact assemble_reportAt_pos hf ha hl (sqOf_le_sqOf.1 h1) h2
    · have h0 : (r.ramp (sqOf r.floor) 0 r.floor).len = 0 := by
        simp [Rates.ramp, hf, linearRamp, linearLen_self]
      have h1 : (r.returnRamp (sqOf r.floor) 0).len = 0 := by simp [Rates.returnRamp, hf, noRamp]
      unfold Rates.assemble
      simp only [h0, h1, Nat.add_zero, Nat.zero_le, decide_true, Bool.true_or, Bool.not_false, Bool.and_self, if_true]
      omega

/-! ### Motion begun -/

/-- An axis that begins to move from standstill (R72, R91). -/
def Axis.launched (a : Axis) (d : Dir) (plan : Option Plan) (speed : Nat) (phase : RampPhase) : Axis :=
  { a with prof := { a.prof with
      dir := d, plan := plan, pendingReplan := false, speedSq := sqOf speed, phase := phase
      accel := match plan with
        | some p => p.accelAt 0
        | none => 0 } }

theorem withProf_ref (a : Axis) (p : Profile) : ({ a with prof := p } : Axis).ref = a.ref := rfl

theorem launched_ref {d : Dir} {plan : Option Plan} {speed : Nat} {phase : RampPhase} :
    (a.launched d plan speed phase).ref = a.ref := withProf_ref _ _

theorem withProf_list (a : Axis) (p : Profile) : ({ a with prof := p } : Axis).list = a.list := rfl

theorem launched_list {d : Dir} {plan : Option Plan} {speed : Nat} {phase : RampPhase} :
    (a.launched d plan speed phase).list = a.list := withProf_list _ _

theorem beginMotion_setAxis {d : Dir} {plan : Option Plan} {speed : Nat} {phase : RampPhase} (h : x.watches = []) :
    (x.setAxis ax a).beginMotion ax d plan speed phase = x.setAxis ax (a.launched d plan speed phase) := by
  unfold State.beginMotion State.updProf
  rw [updAxis_setAxis]
  exact setSpeed_setAxis h

/-- The plan of a head from the present position and speed (R76). -/
def Axis.headPlan (a : Axis) (a0 : Int) (e : Entry) (endSpeed : Nat) : Plan :=
  (orderRates a.setup e).plan a.prof.speedSq a0 (distanceTo a.commanded e.target e.dir) (a.targetSpeed e) endSpeed
    (e.opts.fly && e.kind.positional)

/-- An axis with its head planned (R76, R83). -/
def Axis.planned (a : Axis) (a0 : Int) (e : Entry) (endSpeed : Nat) : Axis :=
  { a with prof := { a.prof with
      plan := some (a.headPlan a0 e endSpeed), pendingReplan := false
      accel := if (a.headPlan a0 e endSpeed).length = 0 then a0 else (a.headPlan a0 e endSpeed).accelAt 0
      phase := (a.headPlan a0 e endSpeed).phaseAt 0 } }

theorem planHead_setAxis {a0 : Int} {endSpeed : Nat} :
    (x.setAxis ax a).planHead ax a0 e endSpeed = x.setAxis ax (a.planned a0 e endSpeed) := by
  unfold State.planHead State.updProf
  dsimp only
  rw [updAxis_setAxis, axis_setAxis_same]
  rfl

/-- A flying decision on an axis with one order declines, and leaves the order otherwise as it is (R57, R58). -/
theorem decideIfDue_single {a0 : Int} (h : a.list = [e]) :
    ∃ f c, (x.setAxis ax a).decideIfDue ax a0 = x.setAxis ax { a with list := [{ e with fly := f, decided := c }] } := by
  unfold State.decideIfDue
  by_cases hc : a.commitReached = true
  · refine ⟨.declined 1, true, ?_⟩
    rw [axis_setAxis_same, if_pos hc]
    unfold State.decideFly
    dsimp only
    rw [axis_setAxis_same, h]
    dsimp only [State.flyFails, List.head?_nil]
    rw [updHead_setAxis _ h]
  · refine ⟨e.fly, e.decided, ?_⟩
    rw [axis_setAxis_same, if_neg hc, ← h]

/-- No flying decision is due of a head that is no move with a target. -/
theorem decideIfDue_of_not_positional {a0 : Int} (h : a.list.head? = some e) (hk : e.kind.positional = false) :
    (x.setAxis ax a).decideIfDue ax a0 = x.setAxis ax a := by
  unfold State.decideIfDue
  rw [axis_setAxis_same, if_neg ?_]
  unfold Axis.commitReached
  rw [h]
  split <;> simp_all

/-- The edge report of a JOG (R79). -/
def Axis.edgeReported (a : Axis) : Axis :=
  { a with
    state := .stopping, stopCause := .limitEdge, rampEnd := .limited, prof := { a.prof with phase := .decelerating } }

theorem edgeDecelIfDue_setAxis :
    (x.setAxis ax a).edgeDecelIfDue ax = x.setAxis ax (if a.edgeDecelReached then a.edgeReported else a) := by
  unfold State.edgeDecelIfDue
  rw [axis_setAxis_same, updAxis_setAxis]
  split <;> rfl

theorem edgeDecelReached_of_kind (h : a.list.head? = some e) (hk : e.kind ≠ .jog) : a.edgeDecelReached = false := by
  unfold Axis.edgeDecelReached
  rw [h]
  split
  · rename_i he _
    rw [← Option.some.inj he]
    simp [hk]
  · rfl

/-- The axis on which an order toward a target has begun from standstill, before what its plan calls for at once. -/
def Axis.departed (a : Axis) (e : Entry) (target : Int) (d : Dir) : Axis :=
  Axis.planned (Axis.launched { a with list := [{ e with target := target, dir := d }] } d none a.setup.floor .accelerating)
    0 { e with target := target, dir := d } a.setup.floor

/-- The only order of a standing axis moves off toward its target (R76, R81, R91). -/
theorem startMoving_setAxis {target : Int} {d : Dir} (hw : x.watches = []) (hl : a.list = [e]) (hm : a.moving = false) :
    (x.setAxis ax a).startMoving ax target d
      = ((x.setAxis ax (a.departed e target d)).decideIfDue ax 0).edgeDecelIfDue ax := by
  unfold State.startMoving
  rw [updHead_setAxis _ hl]
  dsimp only
  rw [axis_setAxis_same, if_neg (show ¬ ({ a with list := [{ e with target := target, dir := d }] } : Axis).moving = true by
    rw [show ({ a with list := [{ e with target := target, dir := d }] } : Axis).moving = a.moving from rfl, hm]; decide),
    beginMotion_setAxis hw, head?_setAxis]
  dsimp only [Axis.launched, List.head?_cons]
  unfold State.planAndDecide
  rw [axis_setAxis_same, planHead_setAxis]
  rfl

end Sys2Proof.Machine
end

section
/-!
Orders that start in the visit that admits them (R50, R52, R76, R79, R91, R101, R135).
-/

open Sys2Proof Sys2Proof.Machine

namespace Sys2Proof.Machine

variable {s t x : State} {r : Race} {w : Walk} {ax j : AxisIx} {a : Axis} {n : Nat} {e : Entry} {b : Byte}

/-! ### Moves and JOGs that depart -/

/-- What an axis that departs keeps, and where it departs to (R72, R76, R91). -/
theorem departed_facts (a : Axis) (e : Entry) (target : Int) (d : Dir) :
    (a.departed e target d).prof.dir = d ∧ (a.departed e target d).prof.speedSq = sqOf a.setup.floor ∧
    (a.departed e target d).moving = true ∧
    ∃ p, (a.departed e target d).prof.plan = some p ∧ p.length = distanceTo a.commanded target d ∧ p.moved = 0 := by
  refine ⟨rfl, rfl, ?_, _, rfl, (plan_start _ _ _ _ _ _ _).1, (plan_start _ _ _ _ _ _ _).2.1⟩
  unfold Axis.moving Axis.departed Axis.planned
  simp

/-- A departed move: its head declines a flying decision that is due at once (R57). -/
theorem startMoving_move {target : Int} {d : Dir} (hw : x.watches = []) (hl : a.list = [e]) (hm : a.moving = false)
    (hk : e.kind ≠ .jog) :
    ∃ f c, (x.setAxis ax a).startMoving ax target d = x.setAxis ax { a.departed e target d with
      list := [{ e with target := target, dir := d, fly := f, decided := c }] } := by
  obtain ⟨f, c, h⟩ := decideIfDue_single (x := x) (ax := ax) (a := a.departed e target d) (a0 := 0)
    (e := { e with target := target, dir := d }) rfl
  refine ⟨f, c, ?_⟩
  rw [startMoving_setAxis hw hl hm, h, edgeDecelIfDue_setAxis, edgeDecelReached_of_kind
    (e := { e with target := target, dir := d, fly := f, decided := c }) rfl hk]
  rfl

/-- The axis of a departed JOG: it may report its edge at once (R79). -/
def Axis.departedJog (a : Axis) (e : Entry) (target : Int) (d : Dir) : Axis :=
  if (a.departed e target d).edgeDecelReached then (a.departed e target d).edgeReported else a.departed e target d

theorem startMoving_jog {target : Int} {d : Dir} (hw : x.watches = []) (hl : a.list = [e]) (hm : a.moving = false)
    (hk : e.kind = .jog) : (x.setAxis ax a).startMoving ax target d = x.setAxis ax (a.departedJog e target d) := by
  rw [startMoving_setAxis hw hl hm, decideIfDue_of_not_positional (e := { e with target := target, dir := d }) rfl
    (show e.kind.positional = false by rw [hk]; rfl), edgeDecelIfDue_setAxis]
  rfl

theorem departedJog_facts (a : Axis) (e : Entry) (target : Int) (d : Dir) (hs : a.state = .running)
    (hc : a.stopCause = .none) :
    (a.departedJog e target d).prof.dir = d ∧ (a.departedJog e target d).prof.speedSq = sqOf a.setup.floor ∧
    (a.departedJog e target d).moving = true ∧
    (∃ p, (a.departedJog e target d).prof.plan = some p ∧ p.length = distanceTo a.commanded target d ∧ p.moved = 0) ∧
    (a.departedJog e target d).list = [{ e with target := target, dir := d }] ∧
    (a.departedJog e target d).commanded = a.commanded ∧ (a.departedJog e target d).feedback = a.feedback ∧
    (a.departedJog e target d).ref = a.ref ∧
    (((a.departedJog e target d).state = .running ∧ (a.departedJog e target d).stopCause = .none) ∨
      ((a.departedJog e target d).state = .stopping ∧ (a.departedJog e target d).stopCause = .limitEdge ∧
        (a.departedJog e target d).rampEnd = .limited)) := by
  obtain ⟨h1, h2, h3, h4⟩ := departed_facts a e target d
  unfold Axis.departedJog
  split
  · exact ⟨h1, h2, rfl, h4, rfl, rfl, rfl, rfl, .inr ⟨rfl, rfl, rfl⟩⟩
  · exact ⟨h1, h2, h3, h4, rfl, rfl, rfl, rfl, .inl ⟨hs, hc⟩⟩

/-- The LINEAR plan of a JOG from the floor speed reports its edge only after its start (R79). -/
theorem headPlan_reportAt_pos (hv : a.prof.speedSq = sqOf a.setup.floor) (hk : e.kind = .jog)
    (hf : e.opts.smooth = false) (ha : 0 < rateOr e.params.p3 a.setup.accel)
    (hl : 0 < distanceTo a.commanded e.target e.dir) : 0 < (a.headPlan 0 e a.setup.floor).reportAt := by
  have hform : (orderRates a.setup e).form = .linear ∧ (orderRates a.setup e).acc = rateOr e.params.p3 a.setup.accel ∧
      (orderRates a.setup e).floor = a.setup.floor := by
    unfold orderRates
    rw [if_pos (by rw [hk]; rfl), hf]
    exact ⟨rfl, rfl, rfl⟩
  obtain ⟨h1, h2, h3⟩ := hform
  unfold Axis.headPlan
  rw [hv, ← h3]
  exact plan_reportAt_pos h1 (by rw [h2]; exact ha) hl (by rw [h3]; exact Nat.le_max_left _ _)

/-- A LINEAR JOG does not report its edge at its start (R79). -/
theorem departedJog_running {target : Int} {d : Dir} (hs : a.state = .running) (hk : e.kind = .jog)
    (hf : e.opts.smooth = false) (ha : 0 < rateOr e.params.p3 a.setup.accel)
    (hl : 0 < distanceTo a.commanded target d) : (a.departedJog e target d).state = .running := by
  have hr : (a.departed e target d).edgeDecelReached = false := by
    have hp := headPlan_reportAt_pos (e := { e with target := target, dir := d })
      (a := Axis.launched { a with list := [{ e with target := target, dir := d }] } d none a.setup.floor .accelerating)
      rfl hk hf ha hl
    obtain ⟨p, hplan, hq⟩ : ∃ p, (a.departed e target d).prof.plan = some p ∧ 0 < p.reportAt ∧ p.moved = 0 :=
      ⟨_, rfl, hp, (plan_start _ _ _ _ _ _ _).2.1⟩
    unfold Axis.edgeDecelReached
    rw [show (a.departed e target d).list.head? = some { e with target := target, dir := d } from rfl, hplan]
    simp only [Bool.and_eq_false_iff, decide_eq_false_iff_not]
    exact .inr (by omega)
  unfold Axis.departedJog
  rw [hr]
  exact hs

/-! ### Reference runs that begin a phase (R135, R137 to R140) -/

/-- An axis in a phase of its reference run, with no next phase (R134). -/
def Axis.phased (a : Axis) (ph : RefPhase) : Axis :=
  { a with ref := { a.ref with phase := ph, next := .none, pauseTimer := none, rampStop := false } }

theorem setPhase_setAxis {ph : RefPhase} : (x.setAxis ax a).setPhase ax ph = x.setAxis ax (a.phased ph) := by
  unfold State.setPhase State.updRef
  rw [updAxis_setAxis]
  rfl

/-- The plan of APPROACH and SEEK_BACK (R137, R138). -/
def Axis.openPlan (a : Axis) (e : Entry) : Plan :=
  (defaultRates a.setup).openPlan (sqOf a.setup.floor) e.params.p2.toNat

theorem beginApproach_setAxis (hw : x.watches = []) (hr : a.readyActive = true) :
    (x.setAxis ax a).beginApproach ax e
      = x.setAxis ax ((a.phased .approach).launched e.searchDir (some (a.openPlan e)) a.setup.floor .accelerating) := by
  unfold State.beginApproach
  rw [setPhase_setAxis]
  dsimp only
  rw [axis_setAxis_same, if_neg (show ¬ (!(a.phased .approach).readyActive) = true by
    rw [show (a.phased .approach).readyActive = a.readyActive from rfl, hr]; decide), beginMotion_setAxis hw]
  rfl

/-- The axis of a SEEK_BACK that begins: the switch counts as seen where it is active (R138). -/
def Axis.seekingBack (a : Axis) : Axis :=
  { a.phased .seekBack with ref := { (a.phased .seekBack).ref with switchSeen := a.referenceActive } }

theorem beginSeekBack_setAxis (hw : x.watches = []) (hr : a.readyActive = true)
    (hl : a.limitActive e.searchDir.opposite = false) :
    (x.setAxis ax a).beginSeekBack ax e = x.setAxis ax
      (a.seekingBack.launched e.searchDir.opposite (some (a.openPlan e)) a.setup.floor .accelerating) := by
  unfold State.beginSeekBack State.updRef
  rw [setPhase_setAxis]
  dsimp only
  rw [updAxis_setAxis, axis_setAxis_same, axis_setAxis_same]
  have h1 : a.seekingBack.readyActive = true := hr
  have h2 : a.seekingBack.limitActive e.searchDir.opposite = false := hl
  show (if (!a.seekingBack.readyActive) = true then _ else if a.seekingBack.limitActive e.searchDir.opposite = true then _
    else _) = _
  rw [h1, h2, if_neg (by decide), if_neg (by decide)]
  exact beginMotion_setAxis hw

theorem beginCreep_setAxis (hw : x.watches = []) (hr : a.readyActive = true) (ha : a.searchActive e = false)
    (hl : e.searchesLimit = false → a.limitActive e.searchDir = false) :
    (x.setAxis ax a).beginCreep ax e
      = x.setAxis ax ((a.phased .creep).launched e.searchDir none e.params.p3.toNat .cruising) := by
  have h1 : (a.phased .creep).readyActive = true := hr
  have h2 : (a.phased .creep).searchActive e = false := ha
  have h3 : (!e.searchesLimit && (a.phased .creep).limitActive e.searchDir) = false := by
    cases h : e.searchesLimit
    · exact hl h
    · rfl
  unfold State.beginCreep
  rw [setPhase_setAxis]
  dsimp only
  rw [axis_setAxis_same, h1, h2, h3, if_neg (by decide), if_neg (by decide), if_neg (by decide)]
  exact beginMotion_setAxis hw

theorem beginClear_setAxis (hw : x.watches = []) (hr : a.readyActive = true) (ha : a.searchActive e = true)
    (hl : a.limitActive e.searchDir.opposite = false) :
    (x.setAxis ax a).beginClear ax e
      = x.setAxis ax ((a.phased .clear).launched e.searchDir.opposite none e.params.p3.toNat .cruising) := by
  have h1 : (a.phased .clear).readyActive = true := hr
  have h2 : (a.phased .clear).searchActive e = true := ha
  have h3 : (a.phased .clear).limitActive e.searchDir.opposite = false := hl
  unfold State.beginClear
  rw [setPhase_setAxis]
  dsimp only
  rw [axis_setAxis_same, h1, h2, h3, if_neg (by decide), if_neg (by decide), if_neg (by decide)]
  exact beginMotion_setAxis hw

/-- The axis of a REFERENCE that starts, its phase chosen by the inputs (R135). -/
def Axis.referencing (a : Axis) (e : Entry) : Axis :=
  if a.searchActive e then (a.phased .clear).launched e.searchDir.opposite none e.params.p3.toNat .cruising
  else if !e.searchesLimit && a.limitActive e.searchDir then
    a.seekingBack.launched e.searchDir.opposite (some (a.openPlan e)) a.setup.floor .accelerating
  else (a.phased .approach).launched e.searchDir (some (a.openPlan e)) a.setup.floor .accelerating

theorem startReference_setAxis (hw : x.watches = []) (hr : a.readyActive = true)
    (hl : a.limitActive e.searchDir.opposite = false) :
    (x.setAxis ax a).startReference ax e = x.setAxis ax (a.referencing e) := by
  unfold State.startReference Axis.referencing
  dsimp only
  rw [axis_setAxis_same, hr, if_neg (by decide)]
  split
  · rename_i ha
    exact beginClear_setAxis hw hr ha hl
  · split
    · exact beginSeekBack_setAxis hw hr hl
    · exact beginApproach_setAxis hw hr

/-- What a REFERENCE that starts leaves of its axis. -/
theorem referencing_eq : a.referencing e = { a with prof := (a.referencing e).prof, ref := (a.referencing e).ref } := by
  unfold Axis.referencing
  repeat' split
  all_goals rfl

theorem referencing_moving : (a.referencing e).moving = true := by
  unfold Axis.referencing
  repeat' split
  all_goals rfl

theorem referencing_assignDue : (a.referencing e).ref.assignDue = a.ref.assignDue := by
  unfold Axis.referencing
  repeat' split
  all_goals
    rw [launched_ref]
    rfl

end Sys2Proof.Machine
end

section
/-!
The visit that starts an order, by the kind of the order (R50, R52, R76, R79, R91, R101, R135).
-/

open Sys2Proof Sys2Proof.Machine

namespace Sys2Proof.Machine

variable {s t x : State} {r : Race} {w : Walk} {ax j : AxisIx} {a : Axis} {n : Nat} {e : Entry} {b : Byte}

/-- The state in which the cell of an order that starts in its visit has been written. -/
def State.begunCell (s : State) (n : Nat) : State :=
  { s with mem := s.takenMem n activeByte, held := insertNat n s.held }

/-- A visit whose order starts: it is closed with nothing to follow, and its axis is as its start leaves it. -/
theorem exec_visit_starts {k : MotionKind} (hq : s.quiet = true) (ho : s.offeredAt w)
    (hd : s.decides w = .motion k ax) (he : e = entryOf w.at_ k (s.cellWords w.at_))
    (hi : (s.axis ax).state = .idle) (hl : (s.axis ax).list = []) (hg : e.opts.gated = false)
    (hx : ((s.begunCell w.at_).setAxis ax ((s.axis ax).begunWith e)).startKind ax e = (s.begunCell w.at_).setAxis ax a)
    (ha : a.ref.assignDue = false) (hs : a.state ≠ .idle) :
    exec (.cellVisit r) s
      = .next ((s.takenAs w.at_ activeByte ax a s.gates s.waiting).walkOn w (s.cellWords w.at_)) := by
  have hn : e.cell = w.at_ := by rw [he]; rfl
  refine exec_visit_taken hq ho hd he ha (settle_queued hi ((startDue_queued hn hl hg).trans (hx.trans rfl)) (.inl ?_))
  have haxis : (s.takenAs w.at_ activeByte ax a s.gates s.waiting).axis ax = a := Quad.get_set_same _ _ _
  rw [haxis]
  exact hs

/-- A MOVE_ABS or MOVE_REL that passes its start checks departs (R50, R76). -/
theorem startMove_passes {target : Int} {d : Dir} (hm : a.moving = false)
    (ht : target = e.targetFrom a.setup a.commanded.toInt) (hd : d = e.dirFrom a.commanded.toInt target)
    (hne : target ≠ a.commanded.toInt) (hr : a.readyActive = true) (hl : a.limitActive d = false)
    (ha : a.allowsTarget e.kind target) :
    (x.setAxis ax a).startMove ax e = (x.setAxis ax a).startMoving ax target d := by
  obtain ⟨h1, h2, h3, h4⟩ := ha
  rw [startMove_setAxis hm ht hd, if_neg (by simp [hr]), if_neg (fun k => by rw [hl] at k; cases k.2),
    windowFails_none _ _ _ h1 h2 h3]
  dsimp only
  rw [if_neg (fun ⟨k1, k2, k3⟩ => by rw [h4 k2 k1] at k3; cases k3), if_neg hne]

theorem startKind_move {target : Int} {d : Dir} (hw : x.watches = []) (hk : e.kind.positional = true)
    (hm : a.moving = false) (ht : target = e.targetFrom a.setup a.commanded.toInt)
    (hd : d = dirTo a.commanded.toInt target) (hne : target ≠ a.commanded.toInt) (hr : a.readyActive = true)
    (hl : a.limitActive d = false) (ha : a.allowsTarget e.kind target) :
    ∃ f c, (x.setAxis ax (a.begunWith e)).startKind ax e = x.setAxis ax { (a.begunWith e).departed e.started target d with
      list := [{ e.started with target := target, dir := d, fly := f, decided := c }] } := by
  have hj : e.kind ≠ .jog := by rintro h; rw [h] at hk; cases hk
  obtain ⟨f, c, h⟩ := startMoving_move (x := x) (ax := ax) (a := a.begunWith e) (e := e.started) (target := target) (d := d)
    hw rfl hm hj
  refine ⟨f, c, ?_⟩
  have hdir : d = e.started.dirFrom (a.begunWith e).commanded.toInt target := by
    rw [hd]
    unfold Entry.dirFrom Entry.started
    cases hkk : e.kind
    case jog => exact absurd hkk hj
    all_goals rfl
  have hkind : (x.setAxis ax (a.begunWith e)).startKind ax e = (x.setAxis ax (a.begunWith e)).startMove ax e.started := by
    unfold State.startKind
    cases hkk : e.kind
    case moveAbs => rfl
    case moveRel => rfl
    all_goals
      rw [hkk] at hk
      cases hk
  rw [hkind, startMove_passes (a := a.begunWith e) (e := e.started) (target := target) hm (by rw [ht]; rfl) hdir hne hr hl
    ha, h]

/-- A JOG whose edge lies ahead departs toward it (R50, R101). -/
theorem startJog_passes {d : Dir} (hm : a.moving = false) (hd : d = dirOfWord e.params.p1) (hr : a.readyActive = true)
    (hl : a.limitActive d = false) :
    (x.setAxis ax a).startJog ax e = if beyond d a.commanded.toInt (jogEdge a.setup d) = false then
      (x.setAxis ax a).finishHead ax .limited else (x.setAxis ax a).startMoving ax (jogEdge a.setup d) d := by
  rw [startJog_setAxis hm hd, if_neg (by simp [hr]), if_neg (by simp [hl])]

theorem startKind_jog {d : Dir} (hw : x.watches = []) (hk : e.kind = .jog) (hm : a.moving = false)
    (hd : d = dirOfWord e.params.p1) (hr : a.readyActive = true) (hl : a.limitActive d = false)
    (hb : beyond d a.commanded.toInt (jogEdge a.setup d) = true) :
    (x.setAxis ax (a.begunWith e)).startKind ax e
      = x.setAxis ax ((a.begunWith e).departedJog e.started (jogEdge a.setup d) d) := by
  have h3 : ¬ beyond d (a.begunWith e).commanded.toInt (jogEdge (a.begunWith e).setup d) = false := fun k => by
    rw [show (a.begunWith e).commanded = a.commanded from rfl, show (a.begunWith e).setup = a.setup from rfl, hb] at k
    cases k
  unfold State.startKind
  rw [hk]
  dsimp only
  rw [startJog_passes (a := a.begunWith e) (e := e.started) (d := d) hm hd hr hl, if_neg h3]
  exact startMoving_jog hw rfl hm hk

/-- A REFERENCE starts in the phase that the inputs choose (R135). -/
theorem startKind_reference (hw : x.watches = []) (hk : e.kind = .reference) (hr : a.readyActive = true)
    (hl : a.limitActive (dirOfWord e.params.p1).opposite = false) :
    (x.setAxis ax (a.begunWith e)).startKind ax e = x.setAxis ax ((a.begunWith e).referencing e.started) := by
  unfold State.startKind
  rw [hk]
  exact startReference_setAxis hw hr hl

/-- An order with nothing to move: what it ends with (R52). -/
def Axis.endsAtStart (a : Axis) (e : Entry) : Prop :=
  (e.kind = .moveAbs ∧ e.params.p1 = a.commanded ∧ (a.setup.requireRef = true → a.referenced = true) ∧
      a.allowsTarget e.kind a.commanded.toInt) ∨
    (e.kind = .moveRel ∧ e.params.p1 = 0 ∧ a.allowsTarget e.kind a.commanded.toInt) ∨
    (e.kind = .dwell ∧ e.params.p1 = 0) ∨
    (e.kind = .jog ∧ a.limitActive (dirOfWord e.params.p1) = false ∧
      beyond (dirOfWord e.params.p1) a.commanded.toInt (jogEdge a.setup (dirOfWord e.params.p1)) = false)

/-- A move to where the axis stands passes its start checks without that of the limit (R52). -/
theorem startMove_here (hm : a.moving = false) (hr : a.readyActive = true)
    (ht : a.commanded.toInt = e.targetFrom a.setup a.commanded.toInt) (ha : a.allowsTarget e.kind a.commanded.toInt) :
    (x.setAxis ax a).startMove ax e = (x.setAxis ax a).finishHead ax .completed := by
  obtain ⟨h1, h2, h3, h4⟩ := ha
  rw [startMove_setAxis hm ht rfl, if_neg (by simp [hr]), if_neg (fun k => k.1 rfl), windowFails_none _ _ _ h1 h2 h3]
  dsimp only
  rw [if_neg (fun ⟨k1, k2, k3⟩ => by rw [h4 k2 k1] at k3; cases k3), if_pos rfl]

/-- An order with nothing to move ends at its start (R52). -/
theorem startKind_ends (hm : a.moving = false) (hr : a.readyActive = true) (h : a.endsAtStart e) :
    (x.setAxis ax (a.begunWith e)).startKind ax e
      = (x.setAxis ax (a.begunWith e)).finishHead ax (if e.kind = .jog then .limited else .completed) := by
  unfold State.startKind
  rcases h with ⟨hk, hp, -, ha⟩ | ⟨hk, hp, ha⟩ | ⟨hk, hp⟩ | ⟨hk, hl, hb⟩
  · rw [hk]
    refine startMove_here (e := e.started) hm hr ?_ ha
    simp [Entry.targetFrom, Entry.started, hk, hp, Axis.begunWith]
  · rw [hk]
    refine startMove_here (e := e.started) hm hr ?_ ha
    simp [Entry.targetFrom, Entry.started, hk, hp, Axis.begunWith]
  · rw [hk, hp]
    rfl
  · rw [hk]
    dsimp only
    rw [startJog_passes (a := a.begunWith e) (e := e.started) (d := dirOfWord e.params.p1) hm rfl hr hl]
    exact if_pos hb

theorem beyond_iff (d : Dir) (p q : Int) : beyond d p q = true ↔ 0 < (q - p) * d.sign := by
  cases d <;> simp [beyond, Dir.sign]

theorem not_beyond_iff (d : Dir) (p q : Int) : beyond d p q = false ↔ (q - p) * d.sign ≤ 0 := by
  rw [← Bool.not_eq_true, beyond_iff, Int.not_lt]

end Sys2Proof.Machine
end

section
/-!
Orders that start at their admission (O22): the visit put together.
-/

open Sys2Proof Sys2Proof.Machine

namespace Sys2Proof.Machine

variable {s t x : State} {r : Race} {w : Walk} {ax j : AxisIx} {a : Axis} {n : Nat} {e : Entry} {b : Byte}

theorem distanceTo_dirTo (p : Word) (target : Int) :
    distanceTo p target (dirTo p.toInt target) = (target - p.toInt).natAbs := by
  unfold distanceTo dirTo
  split <;> simp only [Dir.sign] <;> omega

/-- The axis of an order that has ended in its visit, at standstill (R45, R52). -/
def Axis.endedAtOnce (a : Axis) (e : Entry) (code : EndCode) : Axis :=
  { (a.begunWith e).stood.headEnded e.started [] code with state := .idle, stopCause := .none }

theorem endedAtOnce_assignDue {code : EndCode} (h : a.ref.assignDue = false) :
    (a.endedAtOnce e code).ref.assignDue = false := by
  unfold Axis.endedAtOnce Axis.headEnded
  rw [stood_eq]
  dsimp only
  split
  · rfl
  · exact h

/-- The state of a visit whose order has nothing to move: its cell ended, the axis IDLE again (R52). -/
def State.endedVisit (s : State) (n : Nat) (ax : AxisIx) (e : Entry) (code : EndCode) : State :=
  ((s.begunCell n).headEnded ((s.axis ax).begunWith e) e.started code 0).setAxis ax ((s.axis ax).endedAtOnce e code)

/-- The end code that an order with nothing to move ends with (R52). -/
theorem endsAtStart_codeWord (a : Axis) (e : Entry) (k : MotionKind) :
    (endResult a e.started (if k = .jog then .limited else .completed) 0).codeWord = if k = .jog then 4 else 1 := by
  have hf : ∀ c, (endResult a e.started c 0).fly = .none := by
    intro c
    unfold endResult
    dsimp only
    split <;> rfl
  unfold Result.codeWord
  rw [hf]
  by_cases h : k = .jog
  · rw [if_pos h, if_pos h]
    show bytes4 4 0 0 0 = 4
    decide
  · rw [if_neg h, if_neg h]
    show bytes4 1 0 0 0 = 1
    decide

/-- The settling of an axis whose order has nothing to move. -/
theorem settle_ends (hn : e.cell = n) (hi : (s.axis ax).state = .idle) (hl : (s.axis ax).list = [])
    (hm : (s.axis ax).moving = false) (hr : (s.axis ax).readyActive = true) (hg : e.opts.gated = false)
    (h : (s.axis ax).endsAtStart e) :
    (s.queued n ax e).settle ax = s.endedVisit n ax e (if e.kind = .jog then .limited else .completed) := by
  have hx := startKind_ends (x := s.begunCell n) (ax := ax) hm hr h
  rw [finishHead_setAxis (a := (s.axis ax).begunWith e) (e := e.started) (es := []) (.inr hm) rfl rfl] at hx
  refine settle_queued hi ((startDue_queued hn hl hg).trans hx) (.inr ?_)
  unfold State.endedVisit
  rw [axis_setAxis_same]
  rfl

/-- Settles O22: from the explicit starts of a move, a JOG, a REFERENCE and an order with nothing to move. -/
theorem visitStartsMove : Obligations.VisitStartsMove := by
  refine ⟨fun s w r k ax target hm hq hw ho hd hi hl hmv hg hk hne h1 h2 hwin href hr hlim => ?_,
    fun s w r k ax e a hm hq hw ho hd ha hi hl hmv hr he hg => ⟨fun hk => ?_, fun hp hk => ?_⟩⟩
  · have hpos : k.positional = true := by rcases hk with ⟨rfl, -⟩ | ⟨rfl, -⟩ <;> rfl
    have htarget : target = (entryOf w.at_ k (s.cellWords w.at_)).targetFrom (s.axis ax).setup (s.axis ax).commanded.toInt := by
      rcases hk with ⟨rfl, h⟩ | ⟨rfl, h⟩ <;> exact h
    have hgate : (entryOf w.at_ k (s.cellWords w.at_)).opts.gated = false := by
      cases k <;> exact hg
    obtain ⟨f, c, hx⟩ := startKind_move (x := s.begunCell w.at_) (ax := ax) (a := s.axis ax)
      (e := entryOf w.at_ k (s.cellWords w.at_)) hw hpos hmv htarget rfl hne hr hlim ⟨h1, h2, hwin, href⟩
    have hexec := exec_visit_starts (r := r) hq ho hd rfl hi hl hgate hx ((quiet_iff.1 hq).2.1 ax)
      AxisState.noConfusion
    obtain ⟨r1, r2, r3, r4⟩ := takenAs_reads hm ho.2.1 rfl
    obtain ⟨g1, g2, g3, p, g4, g5, g6⟩ := departed_facts ((s.axis ax).begunWith (entryOf w.at_ k (s.cellWords w.at_)))
      (entryOf w.at_ k (s.cellWords w.at_)).started target (dirTo (s.axis ax).commanded.toInt target)
    refine ⟨_, hexec, r1, r2, r3, r4, ?_, ?_, ?_, ?_, ?_, ?_, ?_, ?_, ?_, fun j hj => takenAs_axis_other hj, rfl, rfl⟩
    all_goals rw [takenAs_axis_same]
    · rfl
    · rfl
    · exact g3
    · exact g1
    · exact g2
    · rfl
    · rfl
    · exact ⟨_, rfl, rfl, rfl, rfl⟩
    · exact ⟨p, g4, g5.trans (distanceTo_dirTo _ _), g6⟩
  · subst ha
    have hkind : e.kind = k := by rw [he]; rfl
    have hdue := (quiet_iff.1 hq).2.1 ax
    rcases hk with ⟨rfl, hlim, hb⟩ | ⟨rfl, hlim⟩
    · have hx := startKind_jog (x := s.begunCell w.at_) (ax := ax) (a := s.axis ax) hw hkind hmv rfl hr hlim
        ((beyond_iff _ _ _).2 hb)
      obtain ⟨g1, g2, g3, ⟨p, g4, g5, g6⟩, g7, g8, g9, g10, g11⟩ := departedJog_facts ((s.axis ax).begunWith e) e.started
        (jogEdge (s.axis ax).setup (dirOfWord e.params.p1)) (dirOfWord e.params.p1) rfl rfl
      have hexec := exec_visit_starts (r := r) hq ho hd he hi hl hg hx (by rw [g10]; exact hdue)
        (by rcases g11 with ⟨h, -⟩ | ⟨h, -⟩ <;> rw [h] <;> exact AxisState.noConfusion)
      obtain ⟨r1, r2, r3, r4⟩ := takenAs_reads hm ho.2.1 rfl
      refine ⟨_, hexec, r1, r2, r3, r4, ?_, ?_, ?_, ?_, fun j hj => takenAs_axis_other hj, rfl, rfl, fun _ => ?_,
        nofun⟩
      all_goals rw [takenAs_axis_same]
      · exact g3
      · exact g8
      · exact g9
      · exact ⟨_, g7, by rw [he]; rfl, hkind, rfl, fun _ => ⟨rfl, rfl⟩⟩
      · exact ⟨g1, g2, g11, fun hf hacc _ => departedJog_running rfl hkind hf hacc (by unfold distanceTo; exact Int.lt_toNat.2 hb),
          p, g4, g6, g5⟩
    · have hx := startKind_reference (x := s.begunCell w.at_) (ax := ax) (a := s.axis ax) hw hkind hr hlim
      have hax := referencing_eq (a := (s.axis ax).begunWith e) (e := e.started)
      have hexec := exec_visit_starts (r := r) hq ho hd he hi hl hg hx (by rw [referencing_assignDue]; exact hdue)
        (by rw [hax]; exact AxisState.noConfusion)
      obtain ⟨r1, r2, r3, r4⟩ := takenAs_reads hm ho.2.1 rfl
      refine ⟨_, hexec, r1, r2, r3, r4, ?_, ?_, ?_, ?_, fun j hj => takenAs_axis_other hj, rfl, rfl, nofun,
        fun _ => ?_⟩
      all_goals rw [takenAs_axis_same]
      · exact referencing_moving
      · rw [hax]; rfl
      · rw [hax]; rfl
      · rw [hax]
        exact ⟨_, rfl, by rw [he]; rfl, hkind, rfl, nofun⟩
      · refine ⟨by rw [hax]; rfl, fun h => ?_, fun h hp hlm => ?_, fun h hor => ?_⟩
        all_goals unfold Axis.referencing
        · rw [if_pos (show ((s.axis ax).begunWith e).searchActive e.started = true from h)]
          exact ⟨rfl, rfl, rfl⟩
        · rw [if_neg (show ¬ ((s.axis ax).begunWith e).searchActive e.started = true by
            rw [show ((s.axis ax).begunWith e).searchActive e.started = (s.axis ax).searchActive e from rfl, h]; decide),
            if_pos (show (!e.started.searchesLimit && ((s.axis ax).begunWith e).limitActive e.started.searchDir) = true from
              Bool.and_eq_true_iff.2 ⟨by simp [Entry.searchesLimit, Entry.started, hp], hlm⟩)]
          exact ⟨rfl, rfl, rfl⟩
        · rw [if_neg (show ¬ ((s.axis ax).begunWith e).searchActive e.started = true by
            rw [show ((s.axis ax).begunWith e).searchActive e.started = (s.axis ax).searchActive e from rfl, h]; decide),
            if_neg (show ¬ (!e.started.searchesLimit && ((s.axis ax).begunWith e).limitActive e.started.searchDir) = true
              from fun k => ?_)]
          · exact ⟨rfl, rfl, rfl⟩
          · obtain ⟨k1, k2⟩ := Bool.and_eq_true_iff.1 k
            rcases hor with hor | hor
            · simp only [Entry.searchesLimit, Entry.started, Bool.not_eq_true', bne_eq_false_iff_eq] at k1
              exact hor k1
            · rw [show ((s.axis ax).begunWith e).limitActive e.started.searchDir
                = (s.axis ax).limitActive (dirOfWord e.params.p1) from rfl, hor] at k2
              cases k2
  · subst ha
    have hn : e.cell = w.at_ := by rw [he]; rfl
    have hkind : e.kind = k := by rw [he]; rfl
    have hends : (s.axis ax).endsAtStart e := by
      unfold Axis.endsAtStart
      rw [hkind, not_beyond_iff]
      exact hk
    have hs := settle_ends hn hi hl hmv hr hg hends
    rw [hkind] at hs
    have hdue := endedAtOnce_assignDue (e := e) (code := if k = .jog then .limited else .completed)
      ((quiet_iff.1 hq).2.1 ax)
    have hx : exec (.cellVisit r) s
        = .next ((s.endedVisit w.at_ ax e (if k = .jog then .limited else .completed)).walkOn w (s.cellWords w.at_)) := by
      rw [exec_visit_motion ho hd, ← he, hs]
      exact congrArg _ (close_of_quiet (quiet_setAxis hq hdue rfl rfl rfl) (by simp [State.walkOn, State.endedVisit,
        State.headEnded, State.ended, State.setAxis, State.begunCell]))
    obtain ⟨h1, h2, h3⟩ := takenEnd_reads
      (t := (s.endedVisit w.at_ ax e (if k = .jog then .limited else .completed)).walkOn w (s.cellWords w.at_))
      hm hp ho.2.1 ho.2.2.1 (x := s.begunCell w.at_)
      (q := endResult ((s.axis ax).begunWith e) e.started (if k = .jog then .limited else .completed) 0) rfl rfl
      (by rw [← hn]; rfl)
    rw [endsAtStart_codeWord] at h2
    have haxis : ((s.endedVisit w.at_ ax e (if k = .jog then .limited else .completed)).walkOn w (s.cellWords w.at_)).axis ax
        = (s.axis ax).endedAtOnce e (if k = .jog then .limited else .completed) := Quad.get_set_same _ _ _
    refine ⟨_, hx, h1, h2, h3, holdsToo_insertNat rfl, by rw [← hn]; rfl, rfl, ?_, ?_, ?_, ?_, ?_,
      fun j hj => Quad.get_set_other _ _ hj, rfl, rfl⟩
    all_goals rw [haxis]
    · rfl
    · rfl
    · exact stood_moving (a := (s.axis ax).begunWith e)
    · exact stood_commanded (a := (s.axis ax).begunWith e)
    · exact stood_feedback (a := (s.axis ax).begunWith e)

end Sys2Proof.Machine
end

section
/-!
What runs out in a reference run: pauses and clear pulses (R138 to R145).
-/

open Sys2Proof Sys2Proof.Machine

namespace Sys2Proof.Machine

variable {s t x : State} {r : Race} {ax j : AxisIx} {a a' : Axis} {e : Entry} {es : List Entry}

/-! ### Phases that begin after a pause -/

theorem beginClearPulse_setAxis : (x.setAxis ax a).beginClearPulse ax e = x.setAxis ax { a.phased .clearPulse with
    ref := { (a.phased .clearPulse).ref with clearOut := true, clearTimer := some e.params.clearWidth } } := by
  unfold State.beginClearPulse State.updRef
  rw [setPhase_setAxis, updAxis_setAxis]

/-- The plan of an OFFSET (R145). -/
def Axis.offsetPlan (a : Axis) (e : Entry) : Plan :=
  (defaultRates a.setup).plan (sqOf a.setup.floor) 0 e.params.offset.natAbs e.params.p2.toNat a.setup.floor false

/-- The axis of an OFFSET that begins (R145). -/
def Axis.offsetting (a : Axis) (e : Entry) (es : List Entry) : Axis :=
  Axis.launched { a.phased .offset with
      list := { e with target := a.commanded.toInt + e.params.offset, dir := dirOfInt e.params.offset } :: es }
    (dirOfInt e.params.offset) (some (a.offsetPlan e)) a.setup.floor ((a.offsetPlan e).phaseAt 0)

theorem beginOffset_setAxis (hw : x.watches = []) (hl : a.list = e :: es) (hr : a.readyActive = true)
    (hlim : a.limitActive (dirOfInt e.params.offset) = false) (h0 : e.params.offset ≠ 0)
    (h1 : -2147483648 ≤ a.commanded.toInt + e.params.offset) (h2 : a.commanded.toInt + e.params.offset ≤ 2147483647) :
    (x.setAxis ax a).beginOffset ax e = x.setAxis ax (a.offsetting e es) := by
  have hr' : (a.phased .offset).readyActive = true := hr
  have hl' : (a.phased .offset).limitActive (dirOfInt e.params.offset) = false := hlim
  have hin : ¬ ((decide ((a.phased .offset).commanded.toInt + e.params.offset < minInt32)
      || decide (maxInt32 < (a.phased .offset).commanded.toInt + e.params.offset)) = true) := by
    rw [show (a.phased .offset).commanded = a.commanded from rfl]
    intro h
    rcases Bool.or_eq_true_iff.1 h with h | h
    · have := of_decide_eq_true h
      unfold minInt32 at this
      omega
    · have := of_decide_eq_true h
      unfold maxInt32 at this
      omega
  unfold State.beginOffset
  dsimp only
  rw [if_neg h0, setPhase_setAxis, axis_setAxis_same, if_neg hin, hr', hl', if_neg (by decide), if_neg (by decide),
    updHead_setAxis (a := a.phased .offset) _ hl]
  exact beginMotion_setAxis hw

/-- What the phase that follows a pause makes of the axis (R138 to R140, R143 to R145). -/
def Axis.beginsPhase (a b : Axis) (e : Entry) (es : List Entry) : Prop :=
  b = { a with prof := b.prof, ref := b.ref, list := b.list } ∧
  (a.ref.next ≠ .offset → b.list = e :: es) ∧
  (a.ref.next = .offset →
    b.list = { e with
      target := a.commanded.toInt + (e.params.p7.extractLsb' 0 24).toInt
      dir := if (e.params.p7.extractLsb' 0 24).toInt < 0 then .minus else .plus } :: es ∧
    b.prof.dir = (if (e.params.p7.extractLsb' 0 24).toInt < 0 then .minus else .plus) ∧
    b.moving = true ∧ b.prof.speedSq = sqOf a.setup.floor ∧
    ∃ p, b.prof.plan = some p ∧ p.moved = 0 ∧ p.form = .linear ∧
      p.length = (e.params.p7.extractLsb' 0 24).toInt.natAbs ∧ p.targetSpeed = e.params.p2.toNat) ∧
  b.ref.phase = a.ref.next ∧ b.ref.pauseTimer = none ∧
  (a.ref.next = .creep → b.prof.dir = e.searchDir ∧ b.moving = true ∧ b.prof.speedSq = sqOf e.params.p3.toNat) ∧
  (a.ref.next = .clear →
    b.prof.dir = e.searchDir.opposite ∧ b.moving = true ∧ b.prof.speedSq = sqOf e.params.p3.toNat) ∧
  (a.ref.next = .seekBack →
    b.prof.dir = e.searchDir.opposite ∧ b.moving = true ∧ b.prof.speedSq = sqOf a.setup.floor) ∧
  (a.ref.next = .clearPulse → b.ref.clearOut = true ∧ b.prof = a.prof ∧
    b.ref.clearTimer = some (e.params.p7.extractLsb' 24 8).toNat)

/-- The phase that a pause leads to, and that nothing hinders at its beginning. -/
def Axis.nextPhaseFree (a : Axis) (e : Entry) : Prop :=
  (a.ref.next = .creep ∧ a.referenceActive = false) ∨ (a.ref.next = .clear ∧ a.referenceActive = true) ∨
    a.ref.next = .seekBack ∨ a.ref.next = .clearPulse ∨
    (a.ref.next = .offset ∧ (e.params.p7.extractLsb' 0 24).toInt ≠ 0 ∧
      -2147483648 ≤ a.commanded.toInt + (e.params.p7.extractLsb' 0 24).toInt ∧
      a.commanded.toInt + (e.params.p7.extractLsb' 0 24).toInt ≤ 2147483647)

/-- The phase that follows a pause begins on its axis alone. -/
theorem beginPhase_begins (hw : x.watches = []) (hl : a.list = e :: es) (hr : a.readyActive = true)
    (hp : a.limitPlusActive = false) (hm : a.limitMinusActive = false) (h4 : e.params.p4 = 0)
    (hn : a.nextPhaseFree e) :
    ∃ b : Axis, (x.setAxis ax a).beginPhase ax e a.ref.next = x.setAxis ax b ∧ b.ref.assignDue = a.ref.assignDue ∧
      a.beginsPhase b e es := by
  have hlim : ∀ d, a.limitActive d = false := by rintro (_ | _) <;> assumption
  have hsl : e.searchesLimit = false := by simp [Entry.searchesLimit, h4]
  have hsa : a.searchActive e = a.referenceActive := by unfold Axis.searchActive; rw [hsl]; rfl
  unfold Axis.beginsPhase
  rcases hn with ⟨hn, ha⟩ | ⟨hn, ha⟩ | hn | hn | ⟨hn, h0, h1, h2⟩
  all_goals rw [hn]
  · exact ⟨_, beginCreep_setAxis hw hr (hsa.trans ha) fun _ => hlim _, by rw [launched_ref]; rfl, rfl,
      fun _ => launched_list.trans hl, nofun, rfl, rfl,
      fun _ => ⟨rfl, rfl, rfl⟩, nofun, nofun, nofun⟩
  · exact ⟨_, beginClear_setAxis hw hr (hsa.trans ha) (hlim _), by rw [launched_ref]; rfl, rfl,
      fun _ => launched_list.trans hl, nofun, rfl, rfl, nofun,
      fun _ => ⟨rfl, rfl, rfl⟩, nofun, nofun⟩
  · exact ⟨_, beginSeekBack_setAxis hw hr (hlim _), by rw [launched_ref]; rfl, rfl,
      fun _ => launched_list.trans hl, nofun, rfl, rfl, nofun, nofun,
      fun _ => ⟨rfl, rfl, rfl⟩, nofun⟩
  · exact ⟨_, beginClearPulse_setAxis, rfl, rfl, fun _ => hl, nofun, rfl, rfl, nofun, nofun, nofun,
      fun _ => ⟨rfl, rfl, rfl⟩⟩
  · obtain ⟨p1, p2, -, -, p5, p6⟩ := plan_start (defaultRates a.setup) (sqOf a.setup.floor) 0 e.params.offset.natAbs
      e.params.p2.toNat a.setup.floor false
    refine ⟨_, beginOffset_setAxis hw hl hr (hlim _) h0 h1 h2, by unfold Axis.offsetting; rw [launched_ref]; rfl, rfl, fun h => absurd rfl h,
      fun _ => ⟨rfl, rfl, ?_, rfl, _, rfl, p2, p5, p1, p6⟩, rfl, rfl, nofun, nofun, nofun, nofun⟩
    unfold Axis.moving Axis.offsetting Axis.launched
    simp

/-! ### A clear pulse that is over (R144) -/

/-- The axis of a clear pulse that is over. -/
def Axis.pulseCleared (a : Axis) : Axis := { a with ref := { a.ref with clearTimer := none, clearOut := false } }

theorem endClearPulse_other (h : a.ref.phase ≠ .clearPulse) :
    (x.setAxis ax a).endClearPulse ax = x.setAxis ax a.pulseCleared := by
  have hp : ¬ ((decide (a.pulseCleared.state = .running) && decide (a.pulseCleared.ref.phase = .clearPulse)) = true) := by
    rw [show a.pulseCleared.ref.phase = a.ref.phase from rfl]
    simp [h]
  unfold State.endClearPulse State.updRef
  dsimp only
  rw [updAxis_setAxis, head?_setAxis, axis_setAxis_same]
  split
  · exact if_neg hp
  · rfl

/-- A clear pulse without an OFFSET behind it ends its order (R144, R145). -/
theorem endClearPulse_ends (h : a.ref.phase = .clearPulse) (hr : a.state = .running) (hl : a.list = [e])
    (hs : e.status = .active) (h0 : e.params.offset = 0) (hm : a.moving = false) :
    (x.setAxis ax a).endClearPulse ax = (x.headEnded a e .completed 0).setAxis ax
      { a.pulseCleared.stood.headEnded e [] .completed with state := .idle, stopCause := .none } := by
  have hp : (decide (a.pulseCleared.state = .running) && decide (a.pulseCleared.ref.phase = .clearPulse)) = true := by
    rw [show a.pulseCleared.ref.phase = a.ref.phase from rfl, show a.pulseCleared.state = a.state from rfl, h, hr]
    rfl
  have hf := finishHead_setAxis (x := x) (ax := ax) (a := a.pulseCleared) (e := e) (es := []) (code := .completed)
    (.inr hm) hl hs
  have hu : (x.setAxis ax a).updRef ax (fun r => { r with clearTimer := none, clearOut := false })
      = x.setAxis ax a.pulseCleared := updAxis_setAxis _
  have hl' : a.pulseCleared.list.head? = some e := by rw [show a.pulseCleared.list = a.list from rfl, hl]; rfl
  unfold State.endClearPulse
  dsimp only
  rw [hu, head?_setAxis, axis_setAxis_same, hl']
  refine (if_pos hp).trans ?_
  have hb : (x.setAxis ax a.pulseCleared).beginOffset ax e = (x.setAxis ax a.pulseCleared).finishHead ax .completed := by
    unfold State.beginOffset
    exact if_pos h0
  refine (congrArg (fun u => State.settle u ax) (hb.trans hf)).trans ?_
  rw [settle_eq_self (.inr (by rw [axis_setAxis_same]; rfl))]
  rfl

/-- The code word of an order that ends COMPLETED without having flown. -/
theorem completed_codeWord (a : Axis) (h : e.kind.moves = false) : (endResult a e .completed 0).codeWord = 1 := by
  have hf : (endResult a e .completed 0).fly = .none := by
    unfold endResult
    rw [h, Bool.and_false]
    rfl
  unfold Result.codeWord
  rw [hf]
  show bytes4 1 0 0 0 = 1
  decide

/-- Settles O49: each phase that follows a pause, and the two ways a clear pulse ends. -/
theorem referenceTimersEnd : Obligations.ReferenceTimersEnd := by
  refine ⟨fun s ax r e es a hq hw ha hs hl hp ht hm hr hlp hlm h4 hn => ?_, fun s ax r hc => ⟨fun hs hp => ?_,
    fun e hq hm h1 hn hp hs hl hk hst h0 hmv => ?_⟩⟩
  · subst ha
    have hss : (s.setAxis ax (s.axis ax)).beginPhase ax e (s.axis ax).ref.next
        = s.beginPhase ax e (s.axis ax).ref.next := by rw [setAxis_axis]
    obtain ⟨b, hb, hdue, hphase⟩ := beginPhase_begins (x := s) (ax := ax) hw hl hr hlp hlm h4 hn
    rw [hss] at hb
    have hrun : b.state = .running := by rw [hphase.1]; exact hs
    have hx : exec (.pauseExpiry ax r) s = .next (s.setAxis ax b) := by
      have hh : s.head? ax = some e := by unfold State.head?; rw [hl]; rfl
      have hd : (s.axis ax).pauseDue = true := by simp [Axis.pauseDue, hs, hp, ht]
      show Host.Outcome.next (match s.head? ax with
        | some e => if (s.axis ax).pauseDue then s.close r ((s.beginPhase ax e (s.axis ax).ref.next).settle ax) else s
        | none => s) = _
      rw [hh]
      dsimp only
      rw [if_pos hd, hb, settle_eq_self (.inl (by rw [axis_setAxis_same, hrun]; exact AxisState.noConfusion))]
      exact congrArg _ (close_of_quiet (quiet_setAxis (ax := ax) (a := b) hq (by rw [hdue]; exact (quiet_iff.1 hq).2.1 ax)
        rfl rfl rfl) (Nat.le_succ _))
    refine ⟨s.setAxis ax b, hx, fun j hj => axis_setAxis_other _ _ hj, rfl, ?_⟩
    rw [axis_setAxis_same]
    exact hphase
  · have hx : exec (.clearPulseExpiry ax r) s = .next (s.setAxis ax (s.axis ax).pulseCleared) := by
      show Host.Outcome.next (if (s.axis ax).ref.clearTimer = some 0 then s.close r (s.endClearPulse ax) else s) = _
      have he := endClearPulse_other (x := s) (ax := ax) hp
      rw [setAxis_axis] at he
      rw [if_pos hc, he]
      refine congrArg _ (close_of_settled (settled_congr (s := s) rfl rfl (fun j => ?_) (fun j => ?_) hs) (Nat.le_succ _))
      all_goals
        by_cases hj : j = ax
        · subst hj
          rw [axis_setAxis_same]; rfl
        · rw [axis_setAxis_other _ _ hj]
    exact ⟨_, hx, axis_setAxis_same _ _ _, fun j hj => axis_setAxis_other _ _ hj, rfl⟩
  · have he := endClearPulse_ends (x := s) (ax := ax) hp hs hl hst (by unfold Params.offset; rw [h0]; rfl) hmv
    rw [setAxis_axis] at he
    have href : ((s.axis ax).pulseCleared.stood.headEnded e [] .completed).ref = {} := by
      unfold Axis.headEnded
      rw [stood_eq, hk]
      rfl
    have hx : exec (.clearPulseExpiry ax r) s = .next ((s.headEnded (s.axis ax) e .completed 0).setAxis ax
        { (s.axis ax).pulseCleared.stood.headEnded e [] .completed with state := .idle, stopCause := .none }) := by
      show Host.Outcome.next (if (s.axis ax).ref.clearTimer = some 0 then s.close r (s.endClearPulse ax) else s) = _
      rw [if_pos hc, he]
      refine congrArg _ (close_of_quiet (quiet_setAxis hq ?_ rfl rfl rfl)
        (by simp [State.headEnded, State.ended, State.setAxis]))
      exact congrArg RefCtl.assignDue href
    have hmem : ((s.headEnded (s.axis ax) e .completed 0).setAxis ax
        { (s.axis ax).pulseCleared.stood.headEnded e [] .completed with state := .idle, stopCause := .none }).mem
        = s.endMem e.cell (endResult (s.axis ax) e .completed 0) := rfl
    have hread := endMem_resultReads hm hn hmem fun tail => tail_ne_entry h1 (by rw [hl]; exact List.mem_singleton.2 rfl)
    rw [completed_codeWord _ (by rw [hk]; rfl)] at hread
    have hel : (endResult (s.axis ax) e .completed 0).elapsed = e.elapsed := if_pos hst
    rw [hel] at hread
    refine ⟨_, hx, ?_, ?_, ?_, ?_, (endMem_reads hm hn hmem).1, hread, fun b hb => endMem_other hmem hb, rfl, rfl,
      fun j hj => axis_setAxis_other _ _ hj, rfl⟩
    all_goals rw [axis_setAxis_same]
    · rfl
    · exact href
    · unfold Axis.headEnded
      rw [stood_eq]
      simp
      rfl

end Sys2Proof.Machine
end

section
/-!
The first fault of an axis with a list of orders, and what follows it: the head ends FAULTED, the rest is flushed, and
the checks of the fault ramp find the axis already on its way to FAULTED (R46, R69, R97, R163, R164).
-/

open Sys2Proof Sys2Proof.Machine

namespace Sys2Proof.Machine

variable {s t x y : State} {r : Race} {ax j : AxisIx} {a : Axis} {n : Nat} {e : Entry} {es : List Entry}

/-! ### Flushes (R46) -/

/-- Entries ended FLUSHED one after another, told without the axis whose list they have left. -/
def State.flushed (s : State) (a : Axis) : List Entry → State
  | [] => s
  | e :: es => (s.ended e.cell (endResult a { e with bound := false } .flushed 0) e.opts.notify).flushed a es

theorem endFlushed_setAxis : ∀ (es : List Entry) {x : State},
    (x.setAxis ax a).endFlushed ax es = (x.flushed a es).setAxis ax a
  | [], _ => rfl
  | e :: es, x => by
      have h : (x.setAxis ax a).endEntry ax .flushed 0 { e with bound := false }
          = (x.ended e.cell (endResult a { e with bound := false } .flushed 0) e.opts.notify).setAxis ax a := by
        unfold State.endEntry
        rw [endCell_setAxis, axis_setAxis_same]
      have hc : (x.setAxis ax a).endFlushed ax (e :: es)
          = ((x.setAxis ax a).endEntry ax .flushed 0 { e with bound := false }).endFlushed ax es := rfl
      rw [hc, h, endFlushed_setAxis es]
      rfl

/-- A byte that only the end of its own cell writes: the state byte, or one of the words 2C to 3C Hex. -/
def ownByte (n a : Nat) : Prop := a = 0x800 + 64 * n ∨ (0x800 + 64 * n + 0x2C ≤ a ∧ a < 0x800 + 64 * n + 0x40)

theorem ownByte_not_mayWrite {m k : Nat} (h : ownByte n k) (hn : n ≠ m) : ¬ mayWrite x m k := by
  unfold ownByte at h
  rintro (hk | hk | ⟨tail, -, hk⟩)
  · omega
  · unfold inResultPart at hk
    omega
  · omega

/-- What flushing does: cells end and are linked, and nothing else changes. -/
theorem flushed_spec : ∀ (es : List Entry) {x : State},
    (∃ b, x.flushed a es = { x with
      mem := (x.flushed a es).mem, chain := (x.flushed a es).chain, causes := { x.causes with ret := b } }) ∧
    x.chain <+: (x.flushed a es).chain ∧
    (∀ n k, n ∉ cellsOf es → ownByte n k → (x.flushed a es).readByte k = x.readByte k)
  | [], x => ⟨⟨x.causes.ret, rfl⟩, List.prefix_refl _, fun _ _ _ _ => rfl⟩
  | e :: es, x => by
      obtain ⟨⟨b, h1⟩, h2, h3⟩ := flushed_spec es
        (x := x.ended e.cell (endResult a { e with bound := false } .flushed 0) e.opts.notify)
      refine ⟨⟨b, h1⟩, (List.prefix_append _ _).trans h2, fun n k hn hk => ?_⟩
      have hn' : n ≠ e.cell ∧ n ∉ cellsOf es := by
        simp only [cellsOf, List.map_cons, List.mem_cons, not_or] at hn
        exact hn
      exact (h3 n k hn'.2 hk).trans (endMem_other (s := x) (n := e.cell) rfl (ownByte_not_mayWrite hk hn'.1))

theorem flushAll_setAxis :
    (x.setAxis ax a).flushAll ax = (x.flushed { a with list := [] } a.list).setAxis ax { a with list := [] } := by
  unfold State.flushAll
  dsimp only
  rw [axis_setAxis_same, updAxis_setAxis, endFlushed_setAxis]

/-- An axis whose binding is dropped (R60). -/
theorem dropBinding_setAxis (hl : a.list = e :: es) : ∃ e' es', e'.cell = e.cell ∧ e'.status = e.status ∧
    e'.opts = e.opts ∧ cellsOf es' = cellsOf es ∧
    (x.setAxis ax a).dropBinding ax = x.setAxis ax { a with list := e' :: es' } := by
  unfold State.dropBinding
  rw [axis_setAxis_same, hl]
  have hself : x.setAxis ax a = x.setAxis ax { a with list := e :: es } := by rw [← hl]
  cases es with
  | nil => exact ⟨e, [], rfl, rfl, rfl, rfl, hself⟩
  | cons n rest =>
      dsimp only
      by_cases hb : n.bound = true
      · rw [if_pos hb, updAxis_setAxis]
        exact ⟨{ e with fly := .declined 5, decided := true }, { n with bound := false } :: rest, rfl, rfl, rfl, rfl, rfl⟩
      · rw [if_neg hb]
        exact ⟨e, n :: rest, rfl, rfl, rfl, rfl, hself⟩

/-! ### An axis on its way to FAULTED -/

/-- An axis is FAULTED or on its fault ramp, with an empty list and no position assignment due. -/
def Axis.inFault (a : Axis) : Prop :=
  a.list = [] ∧ a.ref.assignDue = false ∧
    (a.state = .faulted ∨ (a.state = .stopping ∧ a.stopCause = .fault ∧ a.pendingFault = true))

/-- An axis with an empty list that becomes FAULTED (R164). -/
def Axis.toFaulted (a : Axis) : Axis :=
  { a.stood with state := .faulted, stopCause := .fault, pendingFault := false }

theorem becomeFaulted_setAxis (hw : x.watches = []) (hl : a.list = []) :
    (x.setAxis ax a).becomeFaulted ax = x.setAxis ax a.toFaulted := by
  unfold State.becomeFaulted
  rw [stand_setAxis (.inl hw)]
  dsimp only
  rw [updAxis_setAxis, flushAll_setAxis_nil (by rw [stood_eq]; exact hl)]
  rfl

theorem toFaulted_inFault (hl : a.list = []) (hd : a.ref.assignDue = false) : a.toFaulted.inFault := by
  unfold Axis.toFaulted Axis.inFault
  rw [stood_eq]
  exact ⟨hl, hd, .inl rfl⟩

/-- The plan of a deceleration to standstill from the present speed (R87). -/
def Axis.stopPlan (a : Axis) (rates : Rates) (bound : Option Nat) : Plan :=
  rates.stopPlan a.prof.speedSq a.prof.accel (some (match bound with
    | none => a.rangeBound
    | some d => min d a.rangeBound))

/-- An axis whose deceleration to standstill has begun (R84, R87). -/
def Axis.stopBegun (a : Axis) (rates : Rates) (bound : Option Nat) : Axis :=
  { a with prof := { a.prof with
      plan := some (a.stopPlan rates bound), pendingReplan := false
      accel := (a.stopPlan rates bound).accelAt 0, phase := .decelerating } }

theorem beginStop_setAxis {rates : Rates} {bound : Option Nat} :
    (x.setAxis ax a).beginStop ax rates bound = x.setAxis ax (a.stopBegun rates bound) := by
  unfold State.beginStop State.updProf
  dsimp only
  rw [axis_setAxis_same, updAxis_setAxis]
  rfl

/-- The fault ramp of an axis with an empty list: FAULTED at once, or STOPPING with the checks to follow (R69, R97). -/
theorem faultRamp_setAxis {rates : Rates} (hw : x.watches = []) (hl : a.list = []) (hd : a.ref.assignDue = false) :
    ∃ b : Axis, b.inFault ∧ ((x.setAxis ax a).faultRamp ax rates = x.setAxis ax b ∨
      (x.setAxis ax a).faultRamp ax rates = (x.setAxis ax b).addChecks ax) := by
  have hu : (x.setAxis ax a).updAxis ax (fun a => { a with state := .stopping, stopCause := .fault, pendingFault := true })
      = x.setAxis ax { a with state := .stopping, stopCause := .fault, pendingFault := true } := updAxis_setAxis _
  unfold State.faultRamp
  dsimp only
  rw [hu, beginStop_setAxis, axis_setAxis_same]
  split
  · rw [becomeFaulted_setAxis hw (by exact hl)]
    refine ⟨_, ?_, .inl rfl⟩
    exact toFaulted_inFault hl hd
  · refine ⟨_, ?_, .inr rfl⟩
    exact ⟨hl, hd, .inr ⟨rfl, rfl, rfl⟩⟩

/-- The first fault of an axis whose head is ACTIVE (R69): the head ends FAULTED, the rest is flushed, and the axis is
FAULTED or on its fault ramp. -/
theorem firstFault_setAxis {code : Nat} {reaction : Reaction} (hw : x.watches = []) (hl : a.list = e :: es)
    (hs : e.status = .active) (hd : a.ref.assignDue = false) :
    ∃ (a1 c b : Axis) (e' : Entry) (es' : List Entry), e'.cell = e.cell ∧ cellsOf es' = cellsOf es ∧ b.inFault ∧
      ((x.setAxis ax a).firstFault ax code reaction
          = ((x.headEnded a1 e' .faulted code).flushed c es').setAxis ax b ∨
        (x.setAxis ax a).firstFault ax code reaction
          = (((x.headEnded a1 e' .faulted code).flushed c es').setAxis ax b).addChecks ax) := by
  obtain ⟨e', es', h1, h2, -, h4, h5⟩ := dropBinding_setAxis (x := x) (ax := ax) hl
  have hlist : (x.setAxis ax a).faultList ax code
      = ((x.headEnded { a with list := e' :: es' } e' .faulted code).flushed
          { Axis.headEnded { a with list := e' :: es' } e' es' .faulted with list := [] } es').setAxis ax
          { Axis.headEnded { a with list := e' :: es' } e' es' .faulted with list := [] } := by
    unfold State.faultList
    dsimp only
    rw [axis_setAxis_same, h5, hl]
    dsimp only [List.head?_cons]
    rw [if_neg (by rw [hs]; decide), endHead_setAxis rfl (h2.trans hs), flushAll_setAxis]
    rfl
  have hdue : (Axis.headEnded { a with list := e' :: es' } e' es' .faulted).ref.assignDue = false := by
    unfold Axis.headEnded
    dsimp only
    split
    · rfl
    · exact hd
  have hwatch : ((x.headEnded { a with list := e' :: es' } e' .faulted code).flushed
      { Axis.headEnded { a with list := e' :: es' } e' es' .faulted with list := [] } es').watches = [] := by
    obtain ⟨b, hb⟩ := (flushed_spec (a := { Axis.headEnded { a with list := e' :: es' } e' es' .faulted with list := [] })
      es' (x := x.headEnded { a with list := e' :: es' } e' .faulted code)).1
    rw [hb]
    exact hw
  unfold State.firstFault
  dsimp only
  rw [axis_setAxis_same, hlist]
  split
  · obtain ⟨b, hb, hx⟩ := faultRamp_setAxis (ax := ax) (rates := stopRates a.setup a.list.head?)
      (a := { Axis.headEnded { a with list := e' :: es' } e' es' .faulted with list := [] }) hwatch rfl hdue
    exact ⟨_, _, b, e', es', h1, h4, hb, hx⟩
  · rw [becomeFaulted_setAxis hwatch rfl]
    refine ⟨_, _, _, e', es', h1, h4, ?_, .inl rfl⟩
    exact toFaulted_inFault rfl hdue

/-! ### What stays while the fault is taken -/

/-- The memory and the chain are those of `y`, no watch is armed, the axis is on its way to FAULTED, its entry in the
queue is of the fault `f` where its last code and its count are left out, and nothing but its checks waits. -/
def State.faultKept (y : State) (ax : AxisIx) (f : FaultEntry) (x : State) : Prop :=
  x.mem = y.mem ∧ x.chain = y.chain ∧ x.watches = [] ∧ (x.axis ax).inFault ∧ (∀ j ∈ x.agenda, ∃ c, j = .check ax c) ∧
    x.causes.fault = true ∧
    ∃ g, x.faultEntry (.axis ax) = some g ∧ g.code = f.code ∧ g.detail = f.detail ∧ g.cell = f.cell ∧ g.time = f.time

/-- Another axis value in fault, with an agenda of checks. -/
theorem faultKept_setAxis {f : FaultEntry} {b : Axis} (h : y.faultKept ax f x) (hb : b.inFault) :
    y.faultKept ax f (x.setAxis ax b) := by
  obtain ⟨h1, h2, h3, -, h5, h6, h7⟩ := h
  exact ⟨h1, h2, h3, by rw [axis_setAxis_same]; exact hb, h5, h6, h7⟩

theorem faultKept_agenda {f : FaultEntry} {l : List Job} (h : y.faultKept ax f x) (hl : ∀ j ∈ l, ∃ c, j = .check ax c) :
    y.faultKept ax f { x with agenda := l } := by
  obtain ⟨h1, h2, h3, h4, -, h6, h7⟩ := h
  exact ⟨h1, h2, h3, h4, hl, h6, h7⟩

/-- A further fault of the axis only counts on its entry. -/
theorem faultKept_recordFault {f : FaultEntry} {code detail cell : Nat} (h : y.faultKept ax f x) :
    y.faultKept ax f (x.recordFault (.axis ax) code detail cell) := by
  obtain ⟨h1, h2, h3, h4, h5, h6, g, hg, hcode⟩ := h
  have hfind : ({ x with faults := x.faults.map (fun e => if e.scope == .axis ax then e.again code else e) } :
      State).faultEntry (.axis ax) = some (g.again code) := by
    unfold State.faultEntry at hg ⊢
    have hp : ((fun e : FaultEntry => e.scope == Scope.axis ax) ∘
        fun e => if e.scope == .axis ax then e.again code else e) = fun e => e.scope == Scope.axis ax := by
      funext e
      by_cases he : (e.scope == Scope.axis ax) = true
      · simp only [Function.comp, if_pos he]
        rfl
      · simp only [Function.comp, if_neg he]
    have hs : (g.scope == Scope.axis ax) = true := by simpa using List.find?_some hg
    rw [List.find?_map, hp, hg]
    simp only [Option.map_some, if_pos hs]
  have hk : y.faultKept ax f { x with faults := x.faults.map (fun e => if e.scope == .axis ax then e.again code else e) } :=
    ⟨h1, h2, h3, h4, h5, h6, _, hfind, hcode⟩
  unfold State.recordFault
  rw [hg]
  dsimp only
  split
  · obtain ⟨k1, k2, k3, k4, k5, -, k7⟩ := hk
    exact ⟨k1, k2, k3, k4, k5, rfl, k7⟩
  · exact hk

theorem faultKept_axisFault {f : FaultEntry} {code detail : Nat} {reaction : Reaction} (h : y.faultKept ax f x) :
    y.faultKept ax f (x.axisFault ax code detail reaction) := by
  have hr := faultKept_recordFault (code := code) (detail := detail) (cell := (x.axis ax).reportCell) h
  have ⟨_, _, hw, ⟨hl, hd, hst⟩, _⟩ := hr
  have hb : ((x.recordFault (.axis ax) code detail (x.axis ax).reportCell).becomeFaulted ax)
      = (x.recordFault (.axis ax) code detail (x.axis ax).reportCell).setAxis ax
        ((x.recordFault (.axis ax) code detail (x.axis ax).reportCell).axis ax).toFaulted := by
    conv_lhs => rw [← setAxis_axis (x := x.recordFault (.axis ax) code detail (x.axis ax).reportCell) (ax := ax)]
    exact becomeFaulted_setAxis hw hl
  unfold State.axisFault State.react
  rcases hst with hst | ⟨hst, hc, -⟩
  · rw [hst]
    exact hr
  · rw [hst]
    dsimp only
    rw [if_pos hc]
    cases reaction
    · exact hr
    · dsimp only
      rw [hb]
      exact faultKept_setAxis hr (toFaulted_inFault hl hd)

/-- The checks of an axis on its way to FAULTED leave it there (R97, R163). -/
theorem faultKept_checkCond {f : FaultEntry} {c : Cond} (h : y.faultKept ax f x) :
    y.faultKept ax f (x.checkCond ax c) := by
  have hseen : ∀ {x' : State} (g : Conds → Conds), y.faultKept ax f x' →
      y.faultKept ax f (x'.updAxis ax (fun a => { a with seen := g a.seen })) := fun {x'} g hk =>
    faultKept_setAxis hk hk.2.2.2.1
  have h1 := hseen (fun q => q.put c (x.condHolds ax c)) h
  unfold State.checkCond
  dsimp only
  split
  · cases c with
    | limit =>
        unfold State.reportCond
        dsimp only
        split
        · exact faultKept_axisFault (faultKept_setAxis h1 h1.2.2.2.1)
        · unfold State.limitFault
          dsimp only
          split
          · exact faultKept_axisFault (hseen (fun q => { q with limit := true }) h1)
          · exact faultKept_axisFault h1
    | ready => exact faultKept_axisFault h1
    | alarm => exact faultKept_axisFault h1
    | follow => exact faultKept_axisFault h1
  · exact h1

/-- All that is taken after such a fault keeps it. -/
theorem faultKept_drain {f : FaultEntry} (k : Nat) (picks : List Nat) (h : y.faultKept ax f x) :
    y.faultKept ax f (x.drain k picks) := by
  refine drain_induct (y.faultKept ax f) (fun s i j hs hj => ?_) k picks x h
  obtain ⟨c, rfl⟩ := hs.2.2.2.2.1 j (List.mem_of_getElem? hj)
  exact faultKept_checkCond (faultKept_agenda hs fun j' hj' => hs.2.2.2.2.1 j' (List.mem_of_mem_eraseIdx hj'))

end Sys2Proof.Machine
end

section
/-!
A deadline that runs out, and a DWELL that ends (R56, R67).
-/

open Sys2Proof Sys2Proof.Machine

namespace Sys2Proof.Machine

variable {s t x y : State} {r : Race} {ax j : AxisIx} {a : Axis} {n : Nat} {e : Entry} {es : List Entry}

/-! ### The passage from STOPPING to STOPPED (R185) -/

theorem stopIfAtRest_eq : ∃ m b, s.stopIfAtRest = { s with modState := m, causes := { s.causes with state := b } } ∧
    (m = s.modState ∨ (s.modState = .stopping ∧ m = .stopped)) := by
  unfold State.stopIfAtRest
  by_cases h : (s.modState = .stopping && s.allAtRest) = true
  · rw [if_pos h]
    exact ⟨.stopped, true, rfl, .inr ⟨by simpa using (Bool.and_eq_true_iff.1 h).1, rfl⟩⟩
  · rw [if_neg h]
    exact ⟨s.modState, s.causes.state, rfl, .inl rfl⟩

theorem untouchedBut_of_fixed (h : t.fixed = s.fixed) : s.untouchedBut t ∧ t.modState = s.modState ∧ t.events = s.events := by
  simp only [State.fixed, Prod.mk.injEq] at h
  simp only [State.untouchedBut, h, and_self]

/-- What a frame and the passage to STOPPED leave. -/
theorem untouched_stopIfAtRest (h : t.fixed = s.fixed) : s.untouched t.stopIfAtRest := by
  obtain ⟨hu, hm, -⟩ := untouchedBut_of_fixed h
  obtain ⟨m, b, he, hmod⟩ := stopIfAtRest_eq (s := t)
  rw [he]
  rw [hm] at hmod
  exact ⟨hu, hmod⟩

theorem axis_stopIfAtRest (j : AxisIx) : t.stopIfAtRest.axis j = t.axis j := by
  obtain ⟨m, b, he, -⟩ := stopIfAtRest_eq (s := t)
  rw [he]
  rfl

theorem mem_stopIfAtRest : t.stopIfAtRest.mem = t.mem := by
  obtain ⟨m, b, he, -⟩ := stopIfAtRest_eq (s := t)
  rw [he]

/-- What a frame without positions counted leaves of the axes (R93, R181). -/
theorem Frame.samePositions {p : Keep} (h : Frame p [] s t) (hp : p.pos = true) (j : AxisIx) :
    (t.axis j).commanded = (s.axis j).commanded ∧ (t.axis j).feedback = (s.axis j).feedback ∧
      (t.axis j).setup = (s.axis j).setup ∧ (t.axis j).inputs = (s.axis j).inputs := by
  have ho := h.outside j
  simp only [Axis.outside, Prod.mk.injEq] at ho
  exact ⟨(h.pos hp j).1, (h.pos hp j).2, ho.1, ho.2.1⟩

/-- What a frame writes lies in cells that are held (R2, R4). -/
theorem Frame.writes_held {p : Keep} (h : Frame p [] s t) (hs : s.onePlace) (k : Nat) (hk : t.readByte k ≠ s.readByte k) :
    ∃ n ∈ s.held, inModulePart n k := by
  obtain ⟨n, hn, hp⟩ := h.mem k hk
  exact ⟨n, hs.2.1 n (List.count_pos_iff.1 hn), hp⟩

/-! ### The deadline (R67) -/

/-- The low half of a code word: the end code and the reason. -/
theorem codeWord_low (q : Result) (h1 : q.code = 6) (h2 : q.reason = 207) :
    q.codeWord.extractLsb' 0 16 = 0xCF06#16 := by
  unfold Result.codeWord bytes4
  rw [h1, h2]
  generalize BitVec.ofNat 8 0 = d
  generalize BitVec.ofNat 8 (q.fly.bits + 32 * q.notApplied.toNat) = c
  apply BitVec.eq_of_toNat_eq
  simp only [BitVec.extractLsb'_toNat, BitVec.toNat_append, Nat.shiftRight_zero]
  rw [← Nat.shiftLeft_add_eq_or_of_lt (BitVec.isLt _), ← Nat.shiftLeft_add_eq_or_of_lt (BitVec.isLt _)]
  simp only [Nat.shiftLeft_eq, BitVec.toNat_ofNat]
  omega

/-- The entry of OVERTIME that an order's deadline leaves (R67, R160). -/
def overtimeEntry (s : State) (ax : AxisIx) (e : Entry) : FaultEntry where
  scope := .axis ax
  code := faultOvertime
  detail := e.cell
  cell := e.cell
  time := s.clock
  count := 1
  lastCode := faultOvertime

/-- OVERTIME of an axis with no entry in the queue, not on a fault ramp: its head has ended FAULTED and the rest of its
list FLUSHED (R67, R69). -/
theorem overtime_spec {reaction : Reaction} (hw : s.watches = []) (hf : s.faultEntry (.axis ax) = none)
    (hl : (s.axis ax).list = e :: es) (hs : e.status = .active) (hd : (s.axis ax).ref.assignDue = false)
    (hag : s.agenda = []) (hst : (s.axis ax).state ∈ [AxisState.running, .holding, .held, .stopping])
    (hc : ¬ ((s.axis ax).state = .stopping ∧ (s.axis ax).stopCause = .fault)) :
    ∃ (a1 c : Axis) (e' : Entry) (es' : List Entry), e'.cell = e.cell ∧ cellsOf es' = cellsOf es ∧
      (((s.faulted (.axis ax) faultOvertime e.cell e.cell).headEnded a1 e' .faulted faultOvertime).flushed c es').faultKept
        ax (overtimeEntry s ax e) (s.axisFault ax faultOvertime e.cell reaction) ∧
      s.otherAxes (s.axisFault ax faultOvertime e.cell reaction) ax := by
  have hcell : (s.axis ax).reportCell = e.cell := by
    unfold Axis.reportCell
    rw [hl]
    simp [hs]
  have hfirst : s.axisFault ax faultOvertime e.cell reaction
      = (s.faulted (.axis ax) faultOvertime e.cell e.cell).firstFault ax faultOvertime reaction := by
    unfold State.axisFault State.react
    rw [hcell, recordFault_first hf, show (s.faulted (.axis ax) faultOvertime e.cell e.cell).axis ax = s.axis ax from rfl]
    simp only [List.mem_cons, List.not_mem_nil, or_false] at hst
    rcases hst with h | h | h | h
    all_goals rw [h]
    exact if_neg fun k => hc ⟨h, k⟩
  obtain ⟨a1, c, b, e', es', h1, h2, h3, hx⟩ := firstFault_setAxis (x := s.faulted (.axis ax) faultOvertime e.cell e.cell)
    (ax := ax) (code := faultOvertime) (reaction := reaction) hw hl hs hd
  rw [show (s.faulted (.axis ax) faultOvertime e.cell e.cell).setAxis ax (s.axis ax)
    = s.faulted (.axis ax) faultOvertime e.cell e.cell from setAxis_axis] at hx
  obtain ⟨⟨v, hv⟩, -, -⟩ := flushed_spec (a := c) es'
    (x := (s.faulted (.axis ax) faultOvertime e.cell e.cell).headEnded a1 e' .faulted faultOvertime)
  refine ⟨a1, c, e', es', h1, h2, ?_, fun j hj => ?_⟩
  all_goals
    rw [hfirst]
    generalize hy : ((s.faulted (.axis ax) faultOvertime e.cell e.cell).headEnded a1 e' .faulted faultOvertime).flushed c es'
      = y at hx hv ⊢
  · have hentry : y.faultEntry (.axis ax) = some (overtimeEntry s ax e) := by
      unfold State.faultEntry at hf ⊢
      rw [hv]
      show (s.faults ++ [overtimeEntry s ax e]).find? _ = _
      rw [List.find?_append, hf]
      simp [overtimeEntry]
    have hk : y.faultKept ax (overtimeEntry s ax e) (y.setAxis ax b) :=
      ⟨rfl, rfl, by rw [hv]; exact hw, by rw [axis_setAxis_same]; exact h3, by rw [hv]; simp [State.setAxis, State.headEnded,
        State.ended, State.faulted, hag], by rw [hv]; rfl, _, hentry, rfl, rfl, rfl, rfl⟩
    rcases hx with hx | hx
    · rw [hx]
      exact hk
    · rw [hx]
      refine faultKept_agenda hk ?_
      have : (y.setAxis ax b).agenda = [] := by
        rw [hv]
        exact hag
      rw [this]
      simp
  · have haxes : y.axis j = s.axis j := by rw [hv]; rfl
    rcases hx with hx | hx
    · rw [hx, axis_setAxis_other _ _ hj, haxes]
    · rw [hx]
      exact (axis_setAxis_other _ _ hj).trans haxes

end Sys2Proof.Machine
end

section
/-!
DEADLINE_EXPIRY and DWELL_END (O48): the events put together (R56, R67).
-/

open Sys2Proof Sys2Proof.Machine

namespace Sys2Proof.Machine

variable {s t x y : State} {r : Race} {ax j : AxisIx} {a : Axis} {n : Nat} {e : Entry} {es : List Entry}

/-- What follows a state in which no assignment is due or waits is its jobs taken. -/
theorem followUp_of_noAssigns (h : s.noAssigns) : s.followUp r = s.drain Config.agendaBound r.picks := by
  unfold State.followUp
  rw [assignsDue_of_noAssigns h]

/-- The cell of a head whose order ended FAULTED with OVERTIME, behind it whatever was flushed (R67, R69). -/
theorem overtime_reads {a1 c : Axis} {e' : Entry} {es' : List Entry} (hm : s.memoryWf = true) (hn : e.cell < 480)
    (hc : e'.cell = e.cell) (hcs : cellsOf es' = cellsOf es) (hnd : e.cell ∉ cellsOf es)
    (ht : t.mem = (((s.faulted (.axis ax) faultOvertime e.cell e.cell).headEnded a1 e' .faulted faultOvertime).flushed
      c es').mem) :
    t.readByte (0x800 + 64 * e.cell) = 6 ∧
      (t.readWord (0x800 + 64 * e.cell + 0x2C)).extractLsb' 0 16 = 0xCF06#16 := by
  obtain ⟨-, -, h3⟩ := flushed_spec (a := c) es'
    (x := (s.faulted (.axis ax) faultOvertime e.cell e.cell).headEnded a1 e' .faulted faultOvertime)
  have hown : ∀ k, ownByte e.cell k → t.readByte k
      = ((s.faulted (.axis ax) faultOvertime e.cell e.cell).headEnded a1 e' .faulted faultOvertime).readByte k := fun k hk =>
    (readByte_of_mem ht k).trans (h3 _ k (by rw [hcs]; exact hnd) hk)
  have hend := endMem_reads (s := s.faulted (.axis ax) faultOvertime e.cell e.cell) (n := e.cell)
    (q := endResult a1 e' .faulted faultOvertime)
    (t := (s.faulted (.axis ax) faultOvertime e.cell e.cell).headEnded a1 e' .faulted faultOvertime) hm hn (by rw [← hc]; rfl)
  refine ⟨(hown _ (.inl rfl)).trans hend.1, ?_⟩
  rw [readWord_congr (fun k hk => hown _ (.inr (by omega))), hend.2.1]
  exact codeWord_low _ rfl rfl

/-- The cell of a head is in no other place of its list (R5). -/
theorem head_not_behind (hs : s.onePlace) (hl : (s.axis ax).list = e :: es) : e.cell ∉ cellsOf es := by
  intro hm
  have h1 := List.nodup_iff_count_le_one.1 hs.1 e.cell
  have h2 := List.count_pos_iff.2 hm
  have h3 : (cellsOf (s.axis ax).list).count e.cell ≤ s.cells.count e.cell := by
    rw [count_cells]
    fin_cases ax <;> dsimp <;> omega
  rw [hl] at h3
  simp only [cellsOf, List.map_cons, List.count_cons_self] at h3 h2
  omega

/-- Settles O48: the deadline by its fault and what is taken after it, the DWELL by the end of its only order. -/
theorem deadlineAndDwellEnd : Obligations.DeadlineAndDwellEnd := by
  refine ⟨fun s ax r e es hr hm hp hcalm hw hf hl hs ht hn hst hc => ?_,
    fun s ax r e hm hp hq hst hmv hl hs hk hd hn => ?_⟩
  · obtain ⟨hag, hdue⟩ := calm_iff.1 hcalm
    obtain ⟨a1, c, e', es', h1, h2, hkept, hother⟩ := overtime_spec (reaction := (s.axis ax).setup.followReaction) hw hf hl
      hs (hdue ax) hag hst hc
    generalize hu : s.axisFault ax faultOvertime e.cell (s.axis ax).setup.followReaction = u at hkept hother
    have hx : exec (.deadlineExpiry ax r) s = .next (u.followUp r).stopIfAtRest := by
      have hh : s.head? ax = some e := by unfold State.head?; rw [hl]; rfl
      have hdd : e.deadlineDue = true := by simp [Entry.deadlineDue, hs, ht]
      show Host.Outcome.next (match s.head? ax with
        | some e => if e.deadlineDue then
            s.close r (s.axisFault ax faultOvertime e.cell (s.axis ax).setup.followReaction) else s
        | none => s) = _
      rw [hh]
      dsimp only
      rw [if_pos hdd, hu, close_of_uncollected hr, finish_eq]
    have hno : u.noAssigns := by
      refine ⟨fun j hj => ?_, fun j => ?_⟩
      · obtain ⟨c, hc⟩ := hkept.2.2.2.2.1 _ hj
        cases hc
      · by_cases hj : j = ax
        · rw [hj]
          exact hkept.2.2.2.1.2.1
        · rw [hother j hj]
          exact hdue j
    have hframe : Frame ⟨true, false⟩ [] s (u.followUp r) :=
      frame_followUp_pos (hu ▸ frame_axisFault (Frame.refl _ s)) (by rw [hkept.2.2.1]; exact List.nodup_nil) hno
    obtain ⟨hmem, hchain, -, ⟨hlist, -, hfs⟩, -, hcause, g, hg, hg1, hg2, hg3, hg4⟩ :=
      (followUp_of_noAssigns (r := r) hno) ▸ faultKept_drain Config.agendaBound r.picks hkept
    obtain ⟨hr1, hr2⟩ := overtime_reads (t := (u.followUp r).stopIfAtRest) hm hn h1 h2 (head_not_behind hp hl)
      (mem_stopIfAtRest.trans hmem)
    obtain ⟨m, b, hsr, -⟩ := stopIfAtRest_eq (s := u.followUp r)
    have hfault : (u.followUp r).stopIfAtRest.faultEntry (.axis ax) = some g := by rw [hsr]; exact hg
    refine ⟨_, hx, ⟨?_, ?_, ⟨g, ?_, ?_⟩, ?_⟩, ⟨g, hfault, hg1, hg2, hg3, hg4⟩, hr1, hr2, ?_,
      untouched_stopIfAtRest hframe.fixed, fun j => ?_, fun k hk => ?_⟩
    · rw [axis_stopIfAtRest]
      exact hfs
    · rw [axis_stopIfAtRest]
      exact hlist
    · exact List.mem_of_find?_eq_some hfault
    · simpa using List.find?_some hfault
    · rw [hsr]
      exact hcause
    · rw [hsr]
      show s.chain ++ [e.cell] <+: (u.followUp r).chain
      rw [hchain]
      refine List.IsPrefix.trans ?_ (flushed_spec (a := c) es').2.1
      rw [← h1]
      exact List.prefix_refl _
    · rw [axis_stopIfAtRest]
      exact hframe.samePositions rfl j
    · rw [readByte_of_mem mem_stopIfAtRest] at hk
      exact hframe.writes_held hp k hk
  · have hf := finishHead_setAxis (x := s) (ax := ax) (code := .completed) (.inr hmv) hl hs
    rw [setAxis_axis] at hf
    have hstood : (s.axis ax).stood = { s.axis ax with prof := { (s.axis ax).prof with plan := none, pendingReplan := false } } := by
      unfold Axis.stood
      rw [if_neg (by rw [hmv]; decide)]
    have hax : ({ (s.axis ax).stood.headEnded e [] .completed with state := .idle, stopCause := .none } : Axis)
        = { s.axis ax with
            state := .idle, stopCause := .none, list := []
            prof := { (s.axis ax).prof with plan := none, pendingReplan := false } } := by
      rw [hstood]
      simp [Axis.headEnded, hk]
    rw [hax] at hf
    have hx : exec (.dwellEnd ax r) s = .next ((s.headEnded (s.axis ax) e .completed 0).setAxis ax { s.axis ax with
        state := .idle, stopCause := .none, list := []
        prof := { (s.axis ax).prof with plan := none, pendingReplan := false } }) := by
      have hdd : (s.axis ax).dwellDue = true := by simp [Axis.dwellDue, hl, hst, hk, hd]
      show Host.Outcome.next (if (s.axis ax).dwellDue then s.close r ((s.finishHead ax .completed).settle ax) else s) = _
      rw [if_pos hdd, hf, settle_eq_self (.inr (by rw [axis_setAxis_same]))]
      exact congrArg _ (close_of_quiet (quiet_setAxis (ax := ax) hq (by exact (quiet_iff.1 hq).2.1 ax) rfl rfl rfl)
        (by simp [State.headEnded, State.ended, State.setAxis]))
    have hmem : ((s.headEnded (s.axis ax) e .completed 0).setAxis ax { s.axis ax with
        state := .idle, stopCause := .none, list := []
        prof := { (s.axis ax).prof with plan := none, pendingReplan := false } }).mem
        = s.endMem e.cell (endResult (s.axis ax) e .completed 0) := rfl
    have hread := endMem_resultReads hm hn hmem fun tail => tail_ne_entry hp (by rw [hl]; exact List.mem_singleton.2 rfl)
    rw [completed_codeWord _ (by rw [hk]; rfl), show (endResult (s.axis ax) e .completed 0).elapsed = e.elapsed from
      if_pos hs] at hread
    refine ⟨_, hx, ?_, ?_, rfl, (endMem_reads hm hn hmem).1, hread, fun b hb => endMem_other hmem hb, rfl,
      fun j hj => axis_setAxis_other _ _ hj, axis_setAxis_same _ _ _, rfl⟩
    all_goals rw [axis_setAxis_same]

end Sys2Proof.Machine
end

section
/-!
Watches that fire (R19, R116 to R121): what is recorded, what is performed, what is counted.
-/

open Sys2Proof Sys2Proof.Machine

namespace Sys2Proof.Machine

variable {s t x y : State} {r : Race} {ax j : AxisIx} {n : Nat} {v w m : Watch} {smp : Sample}

/-! ### Recorded (R19, R119) -/

/-- The memory in which a firing has been recorded. -/
@[irreducible] def State.recordMem (s : State) (m : Watch) : List Host.Cell := (s.writeResult m.cell (m.result 0)).mem

/-- The state in which a firing has been recorded, in the entry and in the cell. -/
def State.recorded (s : State) (m : Watch) : State :=
  { s with mem := s.recordMem m, watches := s.watches.map (fun y => if y.cell = m.cell then m else y) }

/-- A firing: recorded, performed where the action applies, and counted. -/
def State.performed (s : State) (m : Watch) : State :=
  if s.actionApplies m.action then (s.recorded m).perform m.action else s.recorded m

theorem writeResult_mem_congr {q : Result} (h : t.mem = s.mem) : (t.writeResult n q).mem = (s.writeResult n q).mem :=
  writeWords_mem_congr _ h

theorem recorded_eq : (s.updWatch v.cell (fun _ => s.fired v)).writeResult v.cell ((s.fired v).result 0)
    = s.recorded (s.fired v) := by
  have hc : (s.fired v).cell = v.cell := rfl
  unfold State.recorded State.recordMem
  rw [writeResult_eq, writeResult_mem_congr (s := s) (t := s.updWatch v.cell (fun _ => s.fired v)) rfl, hc]
  unfold State.updWatch
  simp only [beq_iff_eq]

theorem fire_eq : s.fire v =
    if v.repeatLeft = 1 then (s.performed (s.fired v)).endWatch { s.fired v with repeatLeft := 0 } .firedOut
    else (s.performed (s.fired v)).updWatch v.cell (fun x => { x with repeatLeft := x.repeatLeft - 1 }.restart) := by
  unfold State.fire
  dsimp only
  rw [recorded_eq]
  rfl

/-- What a firing writes into the cell of its watch. -/
theorem recorded_reads (h : s.memoryWf = true) (hn : m.cell < 480) (ht : t.mem = s.recordMem m) : t.firingReads m := by
  rw [State.recordMem] at ht
  obtain ⟨h1, h2, h3, h4, h5⟩ := writeResult_reads (r := m.result 0) h hn
  unfold State.firingReads
  simp only [readWord_of_mem ht]
  rw [watchResult_codeWord] at h1
  exact ⟨h1, h2, h3, h4, h5⟩

theorem recorded_other {k : Nat} (hk : ¬ inResultPart m.cell k) (ht : t.mem = s.recordMem m) :
    t.readByte k = s.readByte k := by
  rw [State.recordMem] at ht
  exact (readByte_of_mem ht k).trans (readByte_writeResult_other fun h => hk (.inr h))

theorem memoryWf_recorded (h : s.memoryWf = true) : (s.recorded m).memoryWf = true := by
  have hw : (s.writeResult m.cell (m.result 0)).memoryWf = true := memoryWf_writeResult h
  unfold State.memoryWf at hw ⊢
  rw [show (s.recorded m).mem = s.recordMem m from rfl, State.recordMem]
  exact hw

/-- A watch whose action is LATCH_ONLY performs nothing. -/
theorem performed_latch (h : m.action = .latchOnly) : s.performed m = s.recorded m := by
  unfold State.performed
  rw [h]
  exact ite_self _

theorem countMs_eq (h : n < 0xFFFFFFFF) : countMs n = n + 1 := by
  unfold countMs maxCount
  omega

/-- The table after a firing recorded and a change of the entry: other entries stay. -/
theorem recorded_updWatch {f : Watch → Watch} : ((s.recorded m).updWatch m.cell f).watches
    = s.watches.map (fun y => if y.cell = m.cell then f m else y) := by
  unfold State.updWatch State.recorded
  rw [List.map_map]
  refine List.map_congr_left fun y _ => ?_
  simp only [Function.comp, beq_iff_eq]
  by_cases h : y.cell = m.cell
  · simp only [h, if_true]
  · simp only [h, if_false]

theorem filter_recorded : (s.recorded m).watches.filter (fun y => y.cell != m.cell)
    = s.watches.filter (fun y => y.cell != m.cell) := by
  unfold State.recorded
  generalize s.watches = l
  induction l with
  | nil => rfl
  | cons y l ih =>
      by_cases h : y.cell = m.cell
      · simp [h, ih]
      · simp [h, ih]

/-! ### A watch that ends (R120) -/

/-- The state in which a watch has left the table and its cell has ended (R120, R123). -/
def State.unwatch (s : State) (w : Watch) (c : EndCode) : State :=
  State.ended { s with watches := s.watches.filter (fun y => y.cell != w.cell) } w.cell (w.result c.code) w.notify

theorem endWatch_eq_ended (w : Watch) (c : EndCode) : s.endWatch w c = s.unwatch w c := endCell_eq_ended

theorem unwatch_reads {c : EndCode} (h : s.memoryWf = true) (hn : w.cell < 480) :
    (s.unwatch w c).endReads w.cell (bytes4 c.code 0 (32 * w.lastNA.toNat) 0) (BitVec.ofNat 32 w.fireCount) w.lastCmd
      w.lastFb (BitVec.ofNat 32 w.sinceArm) := by
  rw [← endWatch_eq_ended]
  exact endWatch_endReads h hn

theorem unwatch_other {c : EndCode} {k : Nat} (h : ¬ mayWrite s w.cell k) :
    (s.unwatch w c).readByte k = s.readByte k := by
  rw [← endWatch_eq_ended]
  exact endWatch_other h

/-! ### ELAPSED_REACHED (R116) -/

theorem elapsedDue_eq (hs : s.onePlace) (hv : v ∈ s.watches) (hq : v.quantity = .elapsed) (ht : v.truth = false)
    (hc : v.condition.holds v.threshold (.value v.elapsed) = true) : s.elapsedDue v.cell = some v := by
  unfold State.elapsedDue
  rw [watchOf_of_mem hs hv]
  simp [hq, ht, hc]

/-- Settles O45: a LATCH_ONLY firing is recorded and counted, its elapsed count restarted; the last one ends the watch. -/
theorem elapsedWatchFires : Obligations.ElapsedWatchFires := by
  intro s r v hm hp hq hv hn hqu ht ha hc hf
  have hfired : s.fired v = { v with truth := true, fireCount := v.fireCount + 1, lastCmd := 0, lastFb := 0, lastNA := false } := by
    unfold State.fired
    rw [countMs_eq hf]
    simp [Watch.recordedAxis, hqu, ha, State.actionApplies]
  have hx : exec (.elapsedReached v.cell r) s = .next (s.close r (s.fire v)) := by
    show Host.Outcome.next (match s.elapsedDue v.cell with
      | some w => s.close r (s.fire w)
      | none => s) = _
    rw [elapsedDue_eq hp hv hqu ht hc]
  have hperf : s.performed (s.fired v) = s.recorded (s.fired v) := performed_latch (by rw [hfired]; exact ha)
  rw [fire_eq, hperf, hfired] at hx
  generalize hmm : ({ v with truth := true, fireCount := v.fireCount + 1, lastCmd := 0, lastFb := 0, lastNA := false } : Watch)
    = m at hx
  have hcell : m.cell = v.cell := by rw [← hmm]
  rw [← hcell] at hn
  have hna : m.lastNA = false := by rw [← hmm]
  by_cases hr : v.repeatLeft = 1
  · rw [if_pos hr] at hx
    rw [endWatch_eq_ended] at hx
    obtain ⟨h0, h1, h2, h3, h4, h5⟩ := unwatch_reads (s := s.recorded m) (w := { m with repeatLeft := 0 }) (c := .firedOut)
      (memoryWf_recorded (m := m) hm) hn
    replace hx := hx.trans (congrArg Host.Outcome.next (close_of_quiet (quiet_of_same (s := s) rfl rfl rfl hq)
      (by simp [State.unwatch, State.ended, State.recorded])))
    rw [← hcell] at hx ⊢
    refine ⟨_, hx, ?_, ?_, ?_, ?_, fun k => absurd hr k, fun _ => ⟨?_, h0, fun k hk => ?_,
      filter_recorded (m := m), rfl, ?_, rfl⟩⟩
    · rw [h2, ← hmm]
    · rw [h3, ← hmm]
    · rw [h4, ← hmm]
    · rw [h5, ← hmm]
    · rw [h1]
      show bytes4 8 0 (32 * m.lastNA.toNat) 0 = 8
      rw [hna]
      decide
    · exact (unwatch_other (s := s.recorded m) (w := { m with repeatLeft := 0 }) hk).trans
        (recorded_other (m := m) (fun h => hk (.inr (.inl h))) rfl)
    · rw [← hmm]
      rfl
  · rw [if_neg hr, ← hcell] at hx
    have hq' : ((s.recorded m).updWatch m.cell (fun x => { x with repeatLeft := x.repeatLeft - 1 }.restart)).quiet = true :=
      quiet_of_same rfl rfl rfl hq
    rw [close_of_quiet (s := s) hq' (Nat.le_succ _)] at hx
    obtain ⟨h1, h2, h3, h4, h5⟩ := recorded_reads (m := m) hm hn
      (t := (s.recorded m).updWatch m.cell (fun x => { x with repeatLeft := x.repeatLeft - 1 }.restart)) rfl
    rw [← hcell]
    refine ⟨_, hx, ?_, ?_, ?_, ?_, fun _ => ⟨?_, fun k hk => recorded_other hk rfl, ?_, rfl⟩, fun k => absurd k hr⟩
    · rw [h2, ← hmm]
    · rw [h3, ← hmm]
    · rw [h4, ← hmm]
    · rw [h5, ← hmm]
    · rw [h1, hna]
      decide
    · rw [recorded_updWatch, ← hmm]
      simp [Watch.restart, hqu]

end Sys2Proof.Machine
end

section
/-!
Event inputs and trigger outputs (R114, R131, R133): one report taken, one watch fired.
-/

open Sys2Proof Sys2Proof.Machine

namespace Sys2Proof.Machine

variable {s t x y : State} {r : Race} {ax : AxisIx} {v m : Watch} {j : Job}

/-! ### One report taken -/

/-- A single report is taken, whatever the picks. -/
theorem drain_single {n : Nat} {picks : List Nat} (h : x.agenda = [j]) (hy : ({ x with agenda := [] } : State).runJob j = y)
    (ha : y.agenda = []) : x.drain (n + 1) picks = y := by
  have hi : pickJob (picks.headD 0) [j] = 0 := by
    have := pickJob_lt (picks.headD 0) (js := [j]) (by simp)
    simpa using this
  unfold State.drain
  simp only [h, hi, List.getElem?_cons_zero, List.eraseIdx_cons_zero, hy]
  exact drain_of_empty ha _ _

/-- An event outside STOPPING that makes one report, and whose report makes none, is closed by that report taken. -/
theorem close_single (h : x.agenda = [j]) (hn : x.noAssigns) (hy : ({ x with agenda := [] } : State).runJob j = y)
    (ha : y.agenda = []) (hm : y.modState ≠ .stopping) (hc : y.chain.length ≤ s.chain.length + 1) :
    s.close r x = y := by
  have hf : x.finish r = y := by
    have hd : x.drain Config.agendaBound r.picks = y := drain_single (n := 4095) h hy ha
    rw [finish_eq, followUp_of_noAssigns hn, hd]
    unfold State.stopIfAtRest
    rw [if_neg (by simp [hm])]
  rw [close_of_short (by rw [hf]; exact hc), hf]

/-- A report that one watch observes. -/
theorem report_single {q : Quantity} {u : Sample} (hw : s.watches = [v]) (hq : v.quantity = q) (ha : s.agenda = []) :
    s.report q u = { s with agenda := [.evalWatch v.cell q u] } := by
  unfold State.report State.addJobs
  rw [hw, ha]
  simp [hq]

theorem noAssigns_of_quiet (hq : s.quiet = true) (hg : ∀ ax, Job.assign ax ∉ t.agenda) (hx : t.axes = s.axes) :
    t.noAssigns :=
  ⟨hg, fun ax => by
    have := (quiet_iff.1 hq).2.1 ax
    unfold State.axis at this ⊢
    rw [hx]
    exact this⟩

/-- The only watch, false, on a value of its condition fires (R117). -/
theorem evaluate_single {u : Sample} (hw : s.watches = [v]) (ht : v.truth = false)
    (hc : v.condition.holds v.threshold u = true) : s.evaluate v.cell u = s.fire v := by
  unfold State.evaluate State.watchOf
  rw [hw]
  simp [ht, hc]

theorem Quad.set_get {α : Type} (q : Quad α) (i : Fin 4) : q.set i (q.get i) = q := by
  fin_cases i <;> rfl

/-- Settles O43: an unwatched input, a watched one, a trigger pulse that is over. -/
theorem eventInputAndTrigger : Obligations.EventInputAndTrigger := by
  refine ⟨fun s i level r hs hu => ?_, fun s i o r v width hq hw hqu ht ha hr he hm hn => ?_, fun s o h => ?_⟩
  · have hset : s.setEvent i level = { s with events := s.events.set i level } :=
      report_of_unwatched (s := { s with events := s.events.set i level }) hu
    show Host.Outcome.next (if s.events.get i = level then s else s.close r (s.setEvent i level)) = _
    rw [hset]
    by_cases h : s.events.get i = level
    · rw [if_pos h, ← h, Quad.set_get]
    · rw [if_neg h]
      exact congrArg _ (close_of_settled (settled_of_same (s := s) rfl rfl rfl hs) (Nat.le_succ _))
  · obtain ⟨hag, -, hmod⟩ := quiet_iff.1 hq
    have hset : s.setEvent i true
        = { s with events := s.events.set i true, agenda := [.evalWatch v.cell (.eventInput i) (.level true)] } :=
      report_single (s := { s with events := s.events.set i true }) hw hqu hag
    generalize hx0 : ({ s with events := s.events.set i true } : State) = x0
    have hfired : x0.fired v
        = { v with truth := true, fireCount := min (v.fireCount + 1) 0xFFFFFFFF, lastCmd := 0, lastFb := 0, lastNA := false } := by
      unfold State.fired
      simp [Watch.recordedAxis, hqu, ha, State.actionApplies, countMs, maxCount]
    generalize hmm : ({ v with truth := true, fireCount := min (v.fireCount + 1) 0xFFFFFFFF, lastCmd := 0, lastFb := 0, lastNA := false } : Watch)
      = m at hfired
    have hcell : m.cell = v.cell := by rw [← hmm]
    have hact : m.action = .pulseOutput o width := by rw [← hmm]; exact ha
    have hperf : x0.performed m = (x0.recorded m).pulseTrigger o width := by
      unfold State.performed
      rw [hact]
      rfl
    have hfire : x0.fire v = ((x0.recorded m).pulseTrigger o width).updWatch m.cell
        (fun x => { x with repeatLeft := x.repeatLeft - 1 }.restart) := by
      rw [fire_eq, if_neg hr, hfired, hperf, hcell]
    have hwatch : (x0.fire v).watches = [{ m with repeatLeft := m.repeatLeft - 1 }] := by
      rw [hfire]
      show ((x0.recorded m).updWatch m.cell _).watches = _
      rw [recorded_updWatch, ← hx0]
      show s.watches.map _ = _
      rw [hw]
      simp [Watch.restart, ← hmm, hqu]
    have hx0' : ({ s with events := s.events.set i true, agenda := [] } : State) = x0 := by rw [← hx0, hag]
    have hrun : ({ s with events := s.events.set i true, agenda := [] } : State).runJob (.evalWatch v.cell (.eventInput i) (.level true))
        = x0.fire v := by
      rw [hx0']
      exact evaluate_single (by rw [← hx0]; exact hw) ht rfl
    have hmem : (x0.fire v).mem = x0.recordMem m := by rw [hfire]; rfl
    have hx : exec (.eventInputChange i true r) s = .next (x0.fire v) := by
      show Host.Outcome.next (if s.events.get i = true then s else s.close r (s.setEvent i true)) = _
      rw [if_neg (by simp [he]), hset]
      refine congrArg _ (close_single rfl (noAssigns_of_quiet hq (by simp) rfl) hrun ?_ ?_ ?_)
      all_goals rw [hfire, ← hx0]
      · exact hag
      · exact hmod
      · exact Nat.le_succ _
    have hreads := recorded_reads (s := x0) (m := m) (t := x0.fire v) (by rw [← hx0]; exact hm) (by rw [hcell]; exact hn) hmem
    refine ⟨_, hx, by rw [hfire, ← hx0]; rfl, fun v' hv' => ?_, fun k hk => ?_, by rw [hfire, ← hx0]; rfl,
      ⟨_, hwatch, by rw [← hmm]⟩, by rw [hfire, ← hx0]; rfl⟩
    · rw [hwatch] at hv'
      rw [List.mem_singleton.1 hv']
      exact hreads
    · rw [← hcell] at hk
      exact (recorded_other hk hmem).trans (by rw [← hx0]; rfl)
  · exact congrArg Host.Outcome.next (if_pos h)

end Sys2Proof.Machine
end

section
/-!
The output pulse (R91, R92, R95): what it makes of its axis and what it reports; one report among others that find
nothing.
-/

open Sys2Proof Sys2Proof.Machine

namespace Sys2Proof.Machine

variable {s t x y : State} {r : Race} {ax j : AxisIx} {a b : Axis} {e : Entry} {es : List Entry} {q : Plan}

/-! ### Reports on an axis replaced -/

/-- The evaluations that a changed quantity calls for (R114). -/
def State.evals (s : State) (u : Quantity) (v : Sample) : List Job :=
  (s.watches.filter (fun w => w.quantity == u)).map (fun w => .evalWatch w.cell u v)

theorem evals_of_unwatched {u : Quantity} {v : Sample} (h : s.unwatched u = true) : s.evals u v = [] := by
  have hf : s.watches.filter (fun w => w.quantity == u) = [] := by
    simp only [State.unwatched, List.all_eq_true, bne_iff_ne, ne_eq] at h
    simpa [List.filter_eq_nil_iff] using h
  unfold State.evals
  rw [hf, List.map_nil]

theorem evals_no_assign {u : Quantity} {v : Sample} {k : AxisIx} : Job.assign k ∉ s.evals u v := by
  simp [State.evals]

/-- Jobs put on the agenda of a state with an axis replaced. -/
theorem addJobs_setAxis {js : List Job} : (x.setAxis ax a).addJobs js = (x.addJobs js).setAxis ax a := rfl

theorem report_setAxis {u : Quantity} {v : Sample} :
    (x.setAxis ax a).report u v = (x.addJobs (x.evals u v)).setAxis ax a := rfl

/-! ### The pulse -/

/-- The axis after the leading edge of a pulse: counted, moved, its following error that of its positions (R91, R95). -/
def Axis.counted (a : Axis) : Axis :=
  { a.countPulse with
    commanded := wordOfInt a.nextCommanded
    followErr := followErrorOf a.setup (wordOfInt a.nextCommanded) a.feedback }

/-- The axis after a pulse: its speed is the one its plan gives (R92). -/
def Axis.pulsed (a : Axis) : Axis :=
  match a.counted.prof.plan with
  | none => a.counted
  | some p =>
      { a.counted with prof := { a.counted.prof with
          speedSq := clampSq a.setup (p.sqAt p.moved), accel := p.accelAt p.moved
          phase := if a.rampingDown then .decelerating else p.phaseAt p.moved } }

theorem pulsed_of_no_plan (h : a.counted.prof.plan = none) : a.pulsed = a.counted := by
  unfold Axis.pulsed
  rw [h]

theorem pulsed_of_plan (h : a.counted.prof.plan = some q) :
    a.pulsed = { a.counted with prof := { a.counted.prof with
      speedSq := clampSq a.setup (q.sqAt q.moved), accel := q.accelAt q.moved
      phase := if a.rampingDown then .decelerating else q.phaseAt q.moved } } := by
  unfold Axis.pulsed
  rw [h]

/-- What a pulse reports (R97, R114). -/
def State.pulseJobs (s : State) (ax : AxisIx) : List Job :=
  s.evals (.commandedPos ax) (.value (wordOfInt (s.axis ax).nextCommanded).toInt) ++
    s.evals (.followingError ax) (.value (s.axis ax).counted.followMagnitude) ++
    (if (s.axis ax).pulsed.prof.speedSq = (s.axis ax).prof.speedSq then []
      else s.evals (.speed ax) (.speedSq (s.axis ax).pulsed.prof.speedSq)) ++
    [.progress ax, .check ax .limit, .check ax .ready, .check ax .alarm, .check ax .follow]

theorem addJobs_addJobs {l l' : List Job} : (x.addJobs l).addJobs l' = x.addJobs (l ++ l') := by
  unfold State.addJobs
  simp only [List.append_assoc]

/-- The pulse of an axis, told as the axis replaced and the jobs put on the agenda. -/
theorem pulse_eq : s.pulse ax = (s.addJobs (s.pulseJobs ax)).setAxis ax (s.axis ax).pulsed := by
  have h2 : (s.updAxis ax Axis.countPulse).moveCommanded ax (wordOfInt (s.axis ax).nextCommanded)
      = (s.addJobs (s.evals (.commandedPos ax) (.value (wordOfInt (s.axis ax).nextCommanded).toInt) ++
          s.evals (.followingError ax) (.value (s.axis ax).counted.followMagnitude))).setAxis ax (s.axis ax).counted := by
    unfold State.moveCommanded State.recomputeError
    dsimp only
    rw [updAxis_updAxis, show ∀ f, s.updAxis ax f = s.setAxis ax (f (s.axis ax)) from fun _ => rfl, report_setAxis,
      updAxis_setAxis, axis_setAxis_same, report_setAxis, addJobs_addJobs]
    rfl
  have h3 : ∀ l, ((s.addJobs l).setAxis ax (s.axis ax).counted).followPlan ax
      = (s.addJobs (l ++ if (s.axis ax).pulsed.prof.speedSq = (s.axis ax).prof.speedSq then []
          else s.evals (.speed ax) (.speedSq (s.axis ax).pulsed.prof.speedSq))).setAxis ax (s.axis ax).pulsed := by
    intro l
    unfold State.followPlan
    rw [axis_setAxis_same]
    dsimp only
    cases hp : (s.axis ax).counted.prof.plan with
    | none =>
        rw [pulsed_of_no_plan hp, if_pos (show (s.axis ax).counted.prof.speedSq = (s.axis ax).prof.speedSq from rfl),
          List.append_nil]
    | some p =>
        rw [pulsed_of_plan hp]
        unfold State.setSpeed State.updProf
        dsimp only
        rw [updAxis_setAxis, axis_setAxis_same, report_setAxis, addJobs_addJobs]
        by_cases hs : (s.axis ax).counted.prof.speedSq = clampSq (s.axis ax).counted.setup (p.sqAt p.moved)
        · have hs' : clampSq (s.axis ax).setup (p.sqAt p.moved) = (s.axis ax).prof.speedSq := hs.symm
          rw [if_pos hs, if_pos hs', List.append_nil]
          rfl
        · have hs' : ¬ clampSq (s.axis ax).setup (p.sqAt p.moved) = (s.axis ax).prof.speedSq := fun k => hs k.symm
          rw [if_neg hs, if_neg hs']
          rfl
  unfold State.pulse State.addChecks State.pulseJobs
  dsimp only
  rw [h2, h3, addJobs_setAxis, addJobs_setAxis, addJobs_addJobs, addJobs_addJobs]
  simp only [List.append_assoc, List.cons_append, List.nil_append]

end Sys2Proof.Machine
end

section
/-!
One report that changes something among others that find nothing (R97, R122): whatever the order they are taken in,
what follows the event is what that report makes.
-/

open Sys2Proof Sys2Proof.Machine

namespace Sys2Proof.Machine

variable {s t x y : State} {r : Race} {ax j : AxisIx} {a b : Axis} {c : Conds} {k : Job} {l : List Job}

/-! ### The agenda taken -/

/-- A property that does not look at the agenda, and that the reports of a kind keep while reporting nothing. -/
structure Idles (P : State → Prop) (idle : Job → Prop) : Prop where
  agenda : ∀ (x : State) (l : List Job), P x → P { x with agenda := l }
  keeps : ∀ (x : State) (k : Job), P x → idle k → P (x.runJob k) ∧ (x.runJob k).agenda = x.agenda

/-- One report takes `before` to `after`; the others keep both. Taken in any order, they lead to `after`. -/
theorem drain_one {before after : State → Prop} {idle : Job → Prop} (hb : Idles before idle) (ha : Idles after idle)
    (hk : ∀ x, before x → after (x.runJob k) ∧ (x.runJob k).agenda = x.agenda) :
    ∀ (n : Nat) (picks : List Nat) (x : State) (l : List Job), before x → x.agenda.Perm (k :: l) → (∀ j ∈ l, idle j) →
      l.length < n → after (x.drain n picks) ∧ (x.drain n picks).agenda = []
  | 0, _, _, _, _, _, _, hn => absurd hn (Nat.not_lt_zero _)
  | n + 1, picks, x, l, hx, hp, hl, hn => by
      have he : x.agenda ≠ [] := fun h => by simp [h] at hp
      have hlt := pickJob_lt (picks.headD 0) he
      obtain ⟨j, hj⟩ : ∃ j, x.agenda[pickJob (picks.headD 0) x.agenda]? = some j := ⟨_, List.getElem?_eq_getElem hlt⟩
      have hrest : (j :: x.agenda.eraseIdx (pickJob (picks.headD 0) x.agenda)).Perm (k :: l) := by
        have := List.getElem_cons_eraseIdx_perm hlt
        rw [List.getElem?_eq_getElem hlt, Option.some.injEq] at hj
        rw [hj] at this
        exact this.trans hp
      have hx' := hb.agenda x (x.agenda.eraseIdx (pickJob (picks.headD 0) x.agenda)) hx
      unfold State.drain
      simp only [hj]
      by_cases hjk : j = k
      · rw [hjk] at hrest ⊢
        obtain ⟨h1, h2⟩ := hk _ hx'
        have hl' := hrest.cons_inv
        refine drain_all after idle ha.agenda ha.keeps n picks.tail _ h1 (fun i hi => ?_) ?_
        · rw [h2] at hi
          exact hl i (hl'.subset hi)
        · rw [h2, hl'.length_eq]
          omega
      · have hjl : j ∈ l := by
          have := hrest.subset List.mem_cons_self
          simpa [hjk] using this
        obtain ⟨h1, h2⟩ := hb.keeps _ j hx' (hl j hjl)
        refine drain_one hb ha hk n picks.tail _ (l.erase j) h1 ?_ (fun i hi => hl i (List.mem_of_mem_erase hi)) ?_
        · rw [h2]
          exact (hrest.trans (((List.perm_cons_erase hjl).cons k).trans (.swap j k _))).cons_inv
        · rw [List.length_erase_of_mem hjl]
          have := List.length_pos_of_mem hjl
          omega

/-- An event of whose reports one changes something, closed (R122). -/
theorem close_one {before after : State → Prop} {idle : Job → Prop} (hb : Idles before idle) (ha : Idles after idle)
    (hk : ∀ x, before x → after (x.runJob k) ∧ (x.runJob k).agenda = x.agenda) (hx : before x) (hn : x.noAssigns)
    (hp : x.agenda.Perm (k :: l)) (hl : ∀ j ∈ l, idle j) (hlen : l.length < 4096)
    (hend : ∀ z, after z → z.modState ≠ .stopping ∧ z.chain.length ≤ s.chain.length + 1) :
    ∃ z, after z ∧ z.agenda = [] ∧ s.close r x = z := by
  obtain ⟨h1, h2⟩ := drain_one hb ha hk Config.agendaBound r.picks x l hx hp hl hlen
  obtain ⟨hm, hc⟩ := hend _ h1
  have hf : x.finish r = x.drain Config.agendaBound r.picks := by
    rw [finish_eq, followUp_of_noAssigns hn]
    unfold State.stopIfAtRest
    rw [if_neg (by simp [hm])]
  refine ⟨_, h1, h2, ?_⟩
  rw [close_of_short (by rw [hf]; exact hc), hf]

/-! ### Checks that find nothing (R97) -/

/-- Nothing holds of an axis that the Position Block finds undisturbed. -/
theorem condHolds_undisturbed {d : Cond} (h : (s.axis ax).undisturbed) : s.condHolds ax d = false := by
  obtain ⟨hr, hl, ha, hf⟩ := h
  cases d <;> simp [State.condHolds, hr, hl, ha, hf]

/-- A check on an undisturbed axis only records that it found nothing. -/
theorem checkCond_undisturbed {d : Cond} (h : a.undisturbed) :
    (x.setAxis ax a).checkCond ax d = x.setAxis ax { a with seen := a.seen.put d false } := by
  have hc : (x.setAxis ax a).condHolds ax d = false := condHolds_undisturbed (by rw [axis_setAxis_same]; exact h)
  unfold State.checkCond
  dsimp only
  rw [hc, updAxis_setAxis]
  rfl

/-- What it takes for an axis to be undisturbed stays with its setup, inputs and direction. -/
theorem undisturbed_congr (hs : b.setup = a.setup) (hi : b.inputs = a.inputs) (hd : b.prof.dir = a.prof.dir)
    (h : a.undisturbed) : b.undisturbed := by
  unfold Axis.undisturbed Axis.readyActive Axis.alarmActive Axis.limitActive Axis.limitPlusActive Axis.limitMinusActive
    at h ⊢
  rw [hs, hi, hd]
  exact h

/-! ### One axis at work -/

/-- A state with one axis replaced, up to the agenda and to what the checks of that axis have found. -/
def State.still (y : State) (ax : AxisIx) (b : Axis) (x : State) : Prop :=
  ∃ c, x = ({ y with agenda := x.agenda } : State).setAxis ax { b with seen := c }

theorem still_self {l : List Job} : y.still ax b (({ y with agenda := l } : State).setAxis ax b) := ⟨b.seen, rfl⟩

theorem still_agenda (h : y.still ax b x) (l : List Job) : y.still ax b { x with agenda := l } := by
  obtain ⟨c, hc⟩ := h
  refine ⟨c, ?_⟩
  rw [hc]
  rfl

theorem still_check {d : Cond} (hb : b.undisturbed) (h : y.still ax b x) :
    y.still ax b (x.runJob (.check ax d)) ∧ (x.runJob (.check ax d)).agenda = x.agenda := by
  obtain ⟨c, hc⟩ := h
  have hx : x.runJob (.check ax d) = ({ y with agenda := x.agenda } : State).setAxis ax { b with seen := c.put d false } := by
    show x.checkCond ax d = _
    conv_lhs => rw [hc]
    rw [checkCond_undisturbed (a := { b with seen := c }) (undisturbed_congr rfl rfl rfl hb)]
  rw [hx]
  exact ⟨⟨_, rfl⟩, rfl⟩

theorem idles_still (hb : b.undisturbed) : Idles (y.still ax b) (fun k => ∃ d, k = .check ax d) :=
  ⟨fun _ l h => still_agenda h l, fun _ _ h ⟨_, hd⟩ => hd ▸ still_check hb h⟩

end Sys2Proof.Machine
end

section
/-!
The output pulse (O33): the pulse itself, whatever it sets off (R2, R91 to R93).
-/

open Sys2Proof Sys2Proof.Machine

namespace Sys2Proof.Machine

variable {s t x y : State} {r : Race} {ax j : AxisIx} {a b : Axis} {c : Conds} {q : Plan}

theorem pulsed_counted : ∃ u acc ph, a.pulsed = { a.counted with
    prof := { a.counted.prof with speedSq := u, accel := acc, phase := ph } } := by
  cases hp : a.counted.prof.plan with
  | none => exact ⟨_, _, _, pulsed_of_no_plan hp⟩
  | some p => exact ⟨_, _, _, pulsed_of_plan hp⟩

/-- A pulse changes of its axis the motion, the position and what follows from it. -/
theorem pulsed_eq : a.pulsed = { a with
    prof := a.pulsed.prof, commanded := wordOfInt a.nextCommanded, followErr := a.pulsed.followErr } := by
  obtain ⟨u, acc, ph, hp⟩ := pulsed_counted (a := a)
  rw [hp]
  rfl

/-- Of the motion a pulse leaves the direction and the override, and counts on one of the two lines (R91). -/
theorem pulsed_prof : a.pulsed.prof.dir = a.prof.dir ∧ a.pulsed.prof.override = a.prof.override ∧
    a.pulsed.prof.pendingReplan = a.prof.pendingReplan ∧ a.pulsed.prof.plan = a.counted.prof.plan ∧
    a.pulsed.prof.edgesA = a.countPulse.prof.edgesA ∧ a.pulsed.prof.edgesB = a.countPulse.prof.edgesB := by
  obtain ⟨u, acc, ph, hp⟩ := pulsed_counted (a := a)
  rw [hp]
  exact ⟨rfl, rfl, rfl, rfl, rfl, rfl⟩

theorem countPulse_edges : if a.setup.pulseMode = .cwCcw ∧ a.prof.dir = .minus then
      a.countPulse.prof.edgesA = a.prof.edgesA ∧ a.countPulse.prof.edgesB = a.prof.edgesB + 1
    else a.countPulse.prof.edgesA = a.prof.edgesA + 1 ∧ a.countPulse.prof.edgesB = a.prof.edgesB := by
  unfold Axis.countPulse
  by_cases h1 : a.setup.pulseMode = .cwCcw
  · by_cases h2 : a.prof.dir = .minus <;> simp [h1, h2]
  · simp [h1]

theorem toInt_wordOfInt {i : Int} (h1 : -2147483648 ≤ i) (h2 : i ≤ 2147483647) : (wordOfInt i).toInt = i := by
  unfold wordOfInt
  rw [BitVec.toInt_ofInt, Int.bmod_eq_of_le (by omega) (by omega)]

theorem canPulse_of (hm : a.moving = true) (hd : a.state ≠ .disabled) (hf : a.state ≠ .faulted)
    (h1 : -2147483648 ≤ a.nextCommanded) (h2 : a.nextCommanded ≤ 2147483647) : a.canPulse = true := by
  simp [Axis.canPulse, hm, hd, hf, minInt32, maxInt32, h1, h2]

theorem exec_pulse (h : (s.axis ax).canPulse = true) : exec (.outputPulse ax r) s = .next (s.close r (s.pulse ax)) :=
  congrArg Host.Outcome.next (if_pos h)

/-- A pulse reports no assignment and leaves none due. -/
theorem pulse_noAssigns (h1 : s.agenda = []) (h2 : ∀ k, (s.axis k).ref.assignDue = false) : (s.pulse ax).noAssigns := by
  rw [pulse_eq]
  refine ⟨fun k hk => ?_, fun k => ?_⟩
  · have hk' : Job.assign k ∈ s.agenda ++ s.pulseJobs ax := hk
    rw [h1] at hk'
    unfold State.pulseJobs at hk'
    split at hk' <;> simp [evals_no_assign] at hk'
  · by_cases hj : k = ax
    · rw [hj, axis_setAxis_same, pulsed_eq]
      exact h2 ax
    · rw [axis_setAxis_other _ _ hj]
      exact h2 k

theorem pulse_cells : (s.pulse ax).cells = s.cells := by
  rw [pulse_eq]
  refine cells_of_same (fun k => ?_) rfl rfl
  by_cases hj : k = ax
  · rw [hj, axis_setAxis_same, pulsed_eq]
  · rw [axis_setAxis_other _ _ hj]
    rfl

theorem pulse_frame (hp : s.onePlace) (h1 : s.agenda = []) (h2 : ∀ k, (s.axis k).ref.assignDue = false) :
    Frame ⟨true, false⟩ [] (s.pulse ax) ((s.pulse ax).followUp r) :=
  frame_followUp_pos (Frame.refl _ _) (by
    rw [pulse_eq]
    exact watches_nodup (s := s) hp) (pulse_noAssigns h1 h2)

/-- The first part of O33: the pulse and what it leaves, whatever follows it. -/
theorem pulse_moves (hp : s.onePlace) (hcalm : s.calm = true) (hr : r.collects = []) (hm : (s.axis ax).moving = true)
    (hd : (s.axis ax).state ≠ .disabled) (hf : (s.axis ax).state ≠ .faulted)
    (h1 : -2147483648 ≤ (s.axis ax).commanded.toInt + (s.axis ax).prof.dir.sign)
    (h2 : (s.axis ax).commanded.toInt + (s.axis ax).prof.dir.sign ≤ 2147483647) :
    ∃ t, exec (.outputPulse ax r) s = .next t ∧
      (t.axis ax).commanded.toInt = (s.axis ax).commanded.toInt + (s.axis ax).prof.dir.sign ∧
      (t.axis ax).feedback = (s.axis ax).feedback ∧
      (if (s.axis ax).setup.pulseMode = .cwCcw ∧ (s.axis ax).prof.dir = .minus then
          (t.axis ax).prof.edgesA = (s.axis ax).prof.edgesA ∧
            (t.axis ax).prof.edgesB = (s.axis ax).prof.edgesB + 1
        else (t.axis ax).prof.edgesA = (s.axis ax).prof.edgesA + 1 ∧
          (t.axis ax).prof.edgesB = (s.axis ax).prof.edgesB) ∧
      (∀ j, j ≠ ax → (t.axis j).prof.edgesA = (s.axis j).prof.edgesA ∧
        (t.axis j).prof.edgesB = (s.axis j).prof.edgesB) ∧
      (∀ j, j ≠ ax → (t.axis j).commanded = (s.axis j).commanded ∧ (t.axis j).feedback = (s.axis j).feedback) ∧
      (∀ j, (t.axis j).setup = (s.axis j).setup ∧ (t.axis j).inputs = (s.axis j).inputs) ∧
      s.untouched t ∧ t.events = s.events ∧ s.chain <+: t.chain ∧
      (∀ a, t.readByte a ≠ s.readByte a → ∃ n ∈ s.held, inModulePart n a) := by
  obtain ⟨hag, hdue⟩ := calm_iff.1 hcalm
  have hframe : Frame ⟨true, false⟩ [] (s.pulse ax) ((s.pulse ax).followUp r) := pulse_frame hp hag hdue
  have hx : exec (.outputPulse ax r) s = .next ((s.pulse ax).followUp r).stopIfAtRest := by
    rw [exec_pulse (canPulse_of hm hd hf h1 h2), close_of_uncollected hr, finish_eq]
  have hself : (s.pulse ax).axis ax = (s.axis ax).pulsed := by rw [pulse_eq, axis_setAxis_same]
  have hother : ∀ j, j ≠ ax → (s.pulse ax).axis j = s.axis j := fun j hj => by
    rw [pulse_eq, axis_setAxis_other _ _ hj]
    rfl
  have hfixed : ((s.pulse ax).followUp r).fixed = s.fixed := hframe.fixed.trans (by rw [pulse_eq]; rfl)
  have hedges : ∀ j, (((s.pulse ax).followUp r).axis j).prof.edgesA = ((s.pulse ax).axis j).prof.edgesA ∧
      (((s.pulse ax).followUp r).axis j).prof.edgesB = ((s.pulse ax).axis j).prof.edgesB := fun j => by
    have ho := hframe.outside j
    simp only [Axis.outside, Prod.mk.injEq] at ho
    exact ⟨ho.2.2.2.2.1, ho.2.2.2.2.2⟩
  have hpos := fun j => hframe.samePositions rfl j
  refine ⟨_, hx, ?_, ?_, ?_, fun j hj => ?_, fun j hj => ?_, fun j => ?_, untouched_stopIfAtRest hfixed, ?_, ?_,
    fun k hk => ?_⟩
  · rw [axis_stopIfAtRest, (hpos ax).1, hself, pulsed_eq]
    exact toInt_wordOfInt h1 h2
  · rw [axis_stopIfAtRest, (hpos ax).2.1, hself, pulsed_eq]
  · obtain ⟨-, -, -, -, hA, hB⟩ := pulsed_prof (a := s.axis ax)
    rw [axis_stopIfAtRest, (hedges ax).1, (hedges ax).2, hself, hA, hB]
    exact countPulse_edges
  · rw [axis_stopIfAtRest, (hedges j).1, (hedges j).2, hother j hj]
    exact ⟨rfl, rfl⟩
  · rw [axis_stopIfAtRest, (hpos j).1, (hpos j).2.1, hother j hj]
    exact ⟨rfl, rfl⟩
  · rw [axis_stopIfAtRest, (hpos j).2.2.1, (hpos j).2.2.2]
    by_cases hj : j = ax
    · rw [hj, hself, pulsed_eq]
      exact ⟨rfl, rfl⟩
    · rw [hother j hj]
      exact ⟨rfl, rfl⟩
  · obtain ⟨m, b, he, -⟩ := stopIfAtRest_eq (s := (s.pulse ax).followUp r)
    rw [he]
    exact (untouchedBut_of_fixed hfixed).2.2
  · obtain ⟨m, b, he, -⟩ := stopIfAtRest_eq (s := (s.pulse ax).followUp r)
    rw [he]
    refine List.IsPrefix.trans ?_ hframe.chain
    rw [pulse_eq]
    exact List.prefix_refl _
  · rw [readByte_of_mem mem_stopIfAtRest] at hk
    obtain ⟨n, hn, hmod⟩ := hframe.mem k (fun h => hk (h.trans (readByte_of_mem (by rw [pulse_eq]; rfl) k)))
    rw [pulse_cells] at hn
    exact ⟨n, hp.2.1 n (List.count_pos_iff.1 hn), hmod⟩

end Sys2Proof.Machine
end

section
/-!
What an output pulse sets off on an axis RUNNING a move (R53, R57, R92): the steps of the sequencer on an axis replaced.
-/

open Sys2Proof Sys2Proof.Machine

namespace Sys2Proof.Machine

variable {s t x y : State} {r : Race} {ax j : AxisIx} {a b : Axis} {c : Conds} {q : Plan} {e n : Entry}
  {es more : List Entry} {l : List Job}

/-! ### The axis after the pulse (R73, R92) -/

/-- `b` is the axis `a` of a running move after a pulse along its plan `q`. -/
structure Axis.Onward (a b : Axis) (q : Plan) : Prop where
  state : b.state = a.state
  list : b.list = a.list
  ref : b.ref = a.ref
  setup : b.setup = a.setup
  inputs : b.inputs = a.inputs
  feedback : b.feedback = a.feedback
  referenced : b.referenced = a.referenced
  commanded : b.commanded = wordOfInt a.nextCommanded
  dir : b.prof.dir = a.prof.dir
  override : b.prof.override = a.prof.override
  replan : b.prof.pendingReplan = a.prof.pendingReplan
  plan : b.prof.plan = some { q with moved := q.moved + 1 }
  speedSq : b.prof.speedSq = clampSq a.setup (q.sqAt (q.moved + 1))
  accel : b.prof.accel = q.accelAt (q.moved + 1)
  phase : b.prof.phase = q.phaseAt (q.moved + 1)

theorem pulsed_onward (hr : a.state = .running) (hs : a.ref.rampStop = false) (hp : a.prof.plan = some q) :
    a.Onward a.pulsed q := by
  have hc : a.counted.prof.plan = some { q with moved := q.moved + 1 } := by
    show a.prof.plan.map _ = _
    rw [hp]
    rfl
  have hd : a.rampingDown = false := by simp [Axis.rampingDown, hr, hs]
  obtain ⟨h1, h2, h3, h4, -⟩ := pulsed_prof (a := a)
  refine ⟨?_, ?_, ?_, ?_, ?_, ?_, ?_, ?_, h1, h2, h3, h4.trans hc, ?_, ?_, ?_⟩
  iterate 8 rw [pulsed_eq]
  all_goals
    rw [pulsed_of_plan hc]
  · rfl
  · rfl
  · simp [hd, Plan.phaseAt, Plan.inFinal]

theorem Axis.Onward.moving (h : a.Onward b q) : b.moving = true := by
  have := phaseAt_ne_standing q (q.moved + 1)
  unfold Axis.moving
  rw [h.phase]
  simp [this]

/-! ### The sequencer where the pulse has brought the axis -/

theorem pendingIfDue_setAxis (h : a.prof.pendingReplan = false) : (x.setAxis ax a).pendingIfDue ax = x.setAxis ax a := by
  unfold State.pendingIfDue
  dsimp only
  rw [axis_setAxis_same]
  split
  · rw [if_neg (by simp [h])]
  · rfl

/-- No flying decision is due of a move without FLY, nor behind one taken, nor before the commit point (R57). -/
theorem commitReached_false (hl : a.list = e :: es) (hp : a.prof.plan = some q)
    (h : e.opts.fly = false ∨ e.decided = true ∨ ∀ k, q.commitAt = some k → q.moved < k) : a.commitReached = false := by
  unfold Axis.commitReached
  rw [hl, hp, List.head?_cons]
  dsimp only
  rcases h with h | h | h
  · simp [h]
  · simp [h]
  · cases hc : q.commitAt with
    | none => simp
    | some k => simp [Nat.not_le.2 (h k hc)]

theorem decideIfDue_undue {a0 : Int} (h : a.commitReached = false) :
    (x.setAxis ax a).decideIfDue ax a0 = x.setAxis ax a := by
  unfold State.decideIfDue
  rw [axis_setAxis_same, if_neg (by simp [h])]

theorem planDone_eq (hp : a.prof.plan = some q) : a.planDone = decide (q.length ≤ q.moved) := by
  unfold Axis.planDone
  rw [hp]

theorem arriveIfDue_short (h : a.planDone = false) : (x.setAxis ax a).arriveIfDue ax = x.setAxis ax a := by
  unfold State.arriveIfDue
  rw [axis_setAxis_same, if_neg (by simp [h])]

theorem indexSpan_setAxis (h : a.ref.phase = .none) : (x.setAxis ax a).indexSpan ax = x.setAxis ax a := by
  unfold State.indexSpan
  dsimp only
  rw [axis_setAxis_same, if_neg (by simp [h])]

/-- What the sequencer does of a move, no replan being due: the flying decision, then arrival. -/
theorem progress_move (hr : a.prof.pendingReplan = false)
    (hd : (x.setAxis ax a).decideIfDue ax a.prof.accel = y.setAxis ax b) (hl : b.list = e :: es)
    (hk : e.kind.positional = true) :
    (x.setAxis ax a).progress ax = ((y.setAxis ax b).arriveIfDue ax).indexSpan ax := by
  have hj : b.edgeDecelReached = false := edgeDecelReached_of_kind (e := e) (by rw [hl]; rfl) (by
    intro h
    rw [h] at hk
    cases hk)
  unfold State.progress
  dsimp only
  rw [pendingIfDue_setAxis hr, axis_setAxis_same, hd, edgeDecelIfDue_setAxis, hj, if_neg (by decide)]

/-- Short of the end of its plan the axis travels on. -/
theorem progress_travels (hr : a.prof.pendingReplan = false)
    (hd : (x.setAxis ax a).decideIfDue ax a.prof.accel = y.setAxis ax b) (hl : b.list = e :: es)
    (hk : e.kind.positional = true) (hp : b.planDone = false) (hf : b.ref.phase = .none) :
    (x.setAxis ax a).progress ax = y.setAxis ax b := by
  rw [progress_move hr hd hl hk, arriveIfDue_short hp, indexSpan_setAxis hf]

/-! ### The pulse closed -/

theorem pulse_unwatched (hag : s.agenda = []) (hw : s.watches = []) :
    s.pulse ax = ({ s with agenda := [.progress ax, .check ax .limit, .check ax .ready, .check ax .alarm,
      .check ax .follow] } : State).setAxis ax (s.axis ax).pulsed := by
  have hu : ∀ u, s.unwatched u = true := fun u => unwatched_of_none hw
  rw [pulse_eq]
  unfold State.pulseJobs State.addJobs
  rw [hag, evals_of_unwatched (hu _), evals_of_unwatched (hu _), evals_of_unwatched (hu _), ite_self]
  rfl

theorem pulsed_undisturbed (h : a.undisturbed) : a.pulsed.undisturbed := by
  obtain ⟨hd, -⟩ := pulsed_prof (a := a)
  exact undisturbed_congr (by rw [pulsed_eq]) (by rw [pulsed_eq]) hd h

/-- An output pulse of an undisturbed axis on which no watch looks: what the sequencer makes of it, whatever the order
in which its reports are taken. -/
theorem exec_pulse_progress (hq : s.quiet = true) (hw : s.watches = []) (hc : (s.axis ax).canPulse = true)
    (hu : (s.axis ax).undisturbed) (hb : b.undisturbed) (hy : y.agenda = []) (hm : y.modState = s.modState)
    (hch : y.chain.length ≤ s.chain.length + 1)
    (hstep : ∀ l c, ∃ c', (({ s with agenda := l } : State).setAxis ax { (s.axis ax).pulsed with seen := c }).progress ax
      = ({ y with agenda := l } : State).setAxis ax { b with seen := c' }) :
    ∃ c, exec (.outputPulse ax r) s = .next (y.setAxis ax { b with seen := c }) := by
  obtain ⟨hag, hdue, hms⟩ := quiet_iff.1 hq
  have hx := pulse_unwatched (ax := ax) hag hw
  obtain ⟨z, ⟨c, hz⟩, hza, hcl⟩ := close_one (s := s) (r := r) (k := .progress ax)
    (l := [.check ax .limit, .check ax .ready, .check ax .alarm, .check ax .follow])
    (idles_still (y := s) (ax := ax) (pulsed_undisturbed hu)) (idles_still (y := y) (ax := ax) hb)
    (fun x ⟨c, hx⟩ => by
      obtain ⟨c', hc'⟩ := hstep x.agenda c
      have hj : x.runJob (.progress ax) = ({ y with agenda := x.agenda } : State).setAxis ax { b with seen := c' } :=
        (congrArg (fun u => State.progress u ax) hx).trans hc'
      rw [hj]
      exact ⟨⟨_, rfl⟩, rfl⟩)
    (hx ▸ still_self) (pulse_noAssigns hag hdue) (by rw [hx]; exact .refl _) (by simp) (by simp)
    (fun z ⟨c, hz⟩ => by
      rw [hz]
      exact ⟨fun k => hms (hm.symm.trans k), hch⟩)
  refine ⟨c, ?_⟩
  rw [exec_pulse hc, hcl, hz, hza, ← hy]

end Sys2Proof.Machine
end

section
/-!
An output pulse along the plan of a move and at its commit point (R57 to R59, R92).
-/

open Sys2Proof Sys2Proof.Machine

namespace Sys2Proof.Machine

variable {s t x y : State} {r : Race} {ax j : AxisIx} {a b d : Axis} {c : Conds} {q : Plan} {e n : Entry}
  {es more : List Entry} {l : List Job}

/-- An axis RUNNING a move, which nothing disturbs and no replan awaits, in a quiet state; `b` is the axis after its next
pulse. -/
structure State.RunsMove (s : State) (ax : AxisIx) (a : Axis) (e : Entry) (es : List Entry)
    (q : Plan) (b : Axis) : Prop where
  quiet : s.quiet = true
  axis : a = s.axis ax
  running : a.state = .running
  moving : a.moving = true
  undisturbed : a.undisturbed
  list : a.list = e :: es
  positional : e.kind.positional = true
  phase : a.ref.phase = .none
  rampStop : a.ref.rampStop = false
  noReplan : a.prof.pendingReplan = false
  plan : a.prof.plan = some q
  low : -2147483648 ≤ a.commanded.toInt + a.prof.dir.sign
  high : a.commanded.toInt + a.prof.dir.sign ≤ 2147483647
  pulsed : b = (s.axis ax).pulsed

theorem State.RunsMove.canPulse (h : s.RunsMove ax a e es q b) : (s.axis ax).canPulse = true := by
  rw [← h.axis]
  exact canPulse_of h.moving (by rw [h.running]; decide) (by rw [h.running]; decide) h.low h.high

theorem State.RunsMove.onward (h : s.RunsMove ax a e es q b) : a.Onward b q := by
  rw [h.pulsed, ← h.axis]
  exact pulsed_onward h.running h.rampStop h.plan

theorem State.RunsMove.here (h : s.RunsMove ax a e es q b) :
    b.commanded.toInt = a.commanded.toInt + a.prof.dir.sign := by
  rw [h.onward.commanded]
  exact toInt_wordOfInt h.low h.high

theorem State.RunsMove.stays (h : s.RunsMove ax a e es q b) : b.undisturbed :=
  undisturbed_congr h.onward.setup h.onward.inputs h.onward.dir h.undisturbed

theorem State.RunsMove.behind (h : s.RunsMove ax a e es q b) : b.list = e :: es := h.onward.list.trans h.list

theorem State.RunsMove.runs (h : s.RunsMove ax a e es q b) : b.state = .running := h.onward.state.trans h.running

theorem State.RunsMove.noPhase (h : s.RunsMove ax a e es q b) : b.ref.phase = .none := by
  rw [h.onward.ref, h.phase]

theorem State.RunsMove.settledPlan (h : s.RunsMove ax a e es q b) : b.prof.pendingReplan = false :=
  h.onward.replan.trans h.noReplan

/-- The pulse of such an axis on which no watch looks, closed. -/
theorem exec_pulse_move (h : s.RunsMove ax a e es q b) (hw : s.watches = []) (hb : d.undisturbed) (hy : y.agenda = [])
    (hm : y.modState = s.modState) (hch : y.chain.length ≤ s.chain.length + 1)
    (hstep : ∀ l c, ∃ c', (({ s with agenda := l } : State).setAxis ax { b with seen := c }).progress ax
      = ({ y with agenda := l } : State).setAxis ax { d with seen := c' }) :
    ∃ c, exec (.outputPulse ax r) s = .next (y.setAxis ax { d with seen := c }) :=
  exec_pulse_progress h.quiet hw h.canPulse (h.axis ▸ h.undisturbed) hb hy hm hch (by rw [← h.pulsed]; exact hstep)

theorem State.RunsMove.agenda (h : s.RunsMove ax a e es q b) : s.agenda = [] := (quiet_iff.1 h.quiet).1

/-- The pulse within the plan, no flying decision being due (R92). -/
theorem progress_onward (h : s.RunsMove ax a e es q b) (hq : q.moved + 1 < q.length)
    (hd : e.opts.fly = false ∨ e.decided = true ∨ ∀ k, q.commitAt = some k → q.moved + 1 < k) :
    (x.setAxis ax { b with seen := c }).progress ax = x.setAxis ax { b with seen := c } :=
  progress_travels (by exact h.settledPlan)
    (decideIfDue_undue (commitReached_false (q := { q with moved := q.moved + 1 }) (by exact h.behind)
      (by exact h.onward.plan) hd)) (by exact h.behind) h.positional
    ((planDone_eq (by exact h.onward.plan)).trans (by simpa using hq)) (by exact h.noPhase)

theorem exec_pulse_onward (h : s.RunsMove ax a e es q b) (hw : s.watches = []) (hq : q.moved + 1 < q.length)
    (hd : e.opts.fly = false ∨ e.decided = true ∨ ∀ k, q.commitAt = some k → q.moved + 1 < k) :
    ∃ c, exec (.outputPulse ax r) s = .next (s.setAxis ax { b with seen := c }) :=
  exec_pulse_move h hw h.stays h.agenda rfl (Nat.le_succ _)
    (fun _ c => ⟨c, progress_onward h hq hd⟩)

/-! ### The commit point (R57, R58) -/

theorem commitReached_true (hr : a.state = .running) (hl : a.list = e :: es) (hk : e.kind.positional = true)
    (hf : e.opts.fly = true) (hd : e.decided = false) (hp : a.prof.plan = some q) (hc : q.commitAt = some q.moved) :
    a.commitReached = true := by
  unfold Axis.commitReached
  rw [hl, hp, List.head?_cons]
  simp [hr, hk, hf, hd, hc]

theorem flyFails_congr {st : AxisSetup} {o : Option Entry} {base : Int} (h : t.gates = s.gates) :
    t.flyFails st e o base = s.flyFails st e o base := by
  unfold State.flyFails State.gateOpen
  rw [h]

theorem decideFly_declines {a0 : Int} {reason : Nat} (hl : a.list = e :: es)
    (hf : x.flyFails a.setup e es.head? e.target = some reason) :
    (x.setAxis ax a).decideFly ax a0
      = x.setAxis ax { a with list := { e with fly := .declined reason, decided := true } :: es } := by
  have hf' : (x.setAxis ax a).flyFails a.setup e es.head? e.target = some reason := (flyFails_congr rfl).trans hf
  unfold State.decideFly
  dsimp only
  rw [axis_setAxis_same, hl]
  dsimp only
  rw [hf']
  exact updHead_setAxis _ hl

/-- The gates after the claim of a second entry (R58, R128). -/
def State.claimedGates (s : State) (n : Entry) : Vector Bool 16 :=
  if n.opts.gated = true ∧ n.opts.observe = false then s.gates.set n.gate false else s.gates

theorem claimSecond_eq : s.claimSecond n = { s with gates := s.claimedGates n } := by
  unfold State.claimSecond State.claimedGates
  rw [grantClaim_eq]
  cases n.opts.gated <;> cases n.opts.observe <;> rfl

/-- The head that flies, with its successor bound (R57, R59). -/
def flownList (e n : Entry) (more : List Entry) : List Entry :=
  { e with fly := .taken, decided := true } :: { n with bound := true } :: more

/-- An axis whose flying decision is taken (R57, R59, R80). -/
def Axis.flown (a : Axis) (e n : Entry) (more : List Entry) : Axis :=
  Axis.planned { a with list := flownList e n more } a.prof.accel { e with fly := .taken, decided := true }
    (a.junctionSpeed e n (a.targetSpeed e))

theorem decideFly_takes (hl : a.list = e :: n :: more) (hf : x.flyFails a.setup e (some n) e.target = none) :
    (x.setAxis ax a).decideFly ax a.prof.accel
      = ({ x with gates := x.claimedGates n } : State).setAxis ax (a.flown e n more) := by
  have hf' : (x.setAxis ax a).flyFails a.setup e (some n) e.target = none := (flyFails_congr rfl).trans hf
  unfold State.decideFly
  dsimp only
  rw [axis_setAxis_same, hl]
  dsimp only [List.head?_cons]
  rw [hf']
  dsimp only
  rw [claimSecond_eq, show ({ x.setAxis ax a with gates := (x.setAxis ax a).claimedGates n } : State)
    = ({ x with gates := x.claimedGates n } : State).setAxis ax a from rfl, updAxis_setAxis, planHead_setAxis]
  rfl

theorem decideIfDue_due {a0 : Int} (h : a.commitReached = true) :
    (x.setAxis ax a).decideIfDue ax a0 = (x.setAxis ax a).decideFly ax a0 := by
  unfold State.decideIfDue
  rw [axis_setAxis_same, if_pos h]

theorem onward_commitReached (h : s.RunsMove ax a e es q b) (hf : e.opts.fly = true) (hd : e.decided = false)
    (hc : q.commitAt = some (q.moved + 1)) : ({ b with seen := c } : Axis).commitReached = true :=
  commitReached_true (q := { q with moved := q.moved + 1 }) (by exact h.runs) (by exact h.behind) h.positional hf hd
    (by exact h.onward.plan) hc

theorem exec_pulse_declines {reason : Nat} (h : s.RunsMove ax a e es q b) (hw : s.watches = [])
    (hq : q.moved + 1 < q.length) (hf : e.opts.fly = true) (hd : e.decided = false)
    (hc : q.commitAt = some (q.moved + 1)) (hr : s.flyFails a.setup e es.head? e.target = some reason) :
    ∃ c, exec (.outputPulse ax r) s = .next (s.setAxis ax { b with
      list := { e with fly := .declined reason, decided := true } :: es, seen := c }) :=
  exec_pulse_move (d := { b with list := { e with fly := .declined reason, decided := true } :: es }) h hw
    (undisturbed_congr (a := b) rfl rfl rfl h.stays) h.agenda rfl (Nat.le_succ _)
    (fun _ c => ⟨c, progress_travels (by exact h.settledPlan)
      ((decideIfDue_due (onward_commitReached h hf hd hc)).trans
        (decideFly_declines (by exact h.behind) ((flyFails_congr rfl).trans (by exact h.onward.setup ▸ hr)))) rfl
      h.positional
      ((planDone_eq (by exact h.onward.plan)).trans (by simpa using hq)) (by exact h.noPhase)⟩)

theorem flown_plan : (a.flown e n more).prof.plan = some (Axis.headPlan { a with list := flownList e n more } a.prof.accel
    { e with fly := .taken, decided := true } (a.junctionSpeed e n (a.targetSpeed e))) := rfl

/-- The move of a taken fly is planned over what remains to its target, to the junction speed (R80). -/
theorem flown_headPlan {p : Plan} (h : (a.flown e n more).prof.plan = some p) :
    p.length = distanceTo a.commanded e.target e.dir ∧ p.moved = 0 ∧ p.startSq = a.prof.speedSq ∧
      p.endSpeed = a.junctionSpeed e n (a.targetSpeed e) := by
  rw [flown_plan, Option.some.injEq] at h
  rw [← h]
  unfold Axis.headPlan
  obtain ⟨h1, h2, h3, h4, -⟩ := plan_start (orderRates a.setup { e with fly := .taken, decided := true }) a.prof.speedSq
    a.prof.accel (distanceTo a.commanded e.target e.dir)
    (Axis.targetSpeed { a with list := flownList e n more } { e with fly := .taken, decided := true })
    (a.junctionSpeed e n (a.targetSpeed e)) (e.opts.fly && e.kind.positional)
  exact ⟨h1, h2, h3, h4⟩

theorem flown_travels (h : 0 < distanceTo a.commanded e.target e.dir) : (a.flown e n more).planDone = false := by
  obtain ⟨h1, h2, -⟩ := flown_headPlan (flown_plan (a := a) (e := e) (n := n) (more := more))
  rw [planDone_eq flown_plan, h1, h2]
  simpa using Nat.pos_iff_ne_zero.1 h

theorem exec_pulse_takes (h : s.RunsMove ax a e (n :: more) q b) (hw : s.watches = [])
    (hf : e.opts.fly = true) (hd : e.decided = false)
    (hc : q.commitAt = some (q.moved + 1)) (hr : s.flyFails a.setup e (some n) e.target = none)
    (hrem : 0 < distanceTo b.commanded e.target e.dir) :
    ∃ c, exec (.outputPulse ax r) s = .next (({ s with gates := s.claimedGates n } : State).setAxis ax
      { b.flown e n more with seen := c }) :=
  exec_pulse_move (y := { s with gates := s.claimedGates n }) (d := b.flown e n more) h hw
    (undisturbed_congr (a := b) rfl rfl rfl h.stays) h.agenda rfl (Nat.le_succ _)
    (fun l c => ⟨c, progress_travels (e := { e with fly := .taken, decided := true }) (by exact h.settledPlan)
      ((decideIfDue_due (onward_commitReached h hf hd hc)).trans
        (decideFly_takes (a := { b with seen := c }) (by exact h.behind) ((flyFails_congr rfl).trans (by exact h.onward.setup ▸ hr))))
      rfl h.positional (flown_travels (by exact hrem)) (by exact h.noPhase)⟩)

end Sys2Proof.Machine
end

section
/-!
An output pulse at the end of the plan of a move: the move ends, at standstill or before a bound successor (R53, R59,
R81).
-/

open Sys2Proof Sys2Proof.Machine

namespace Sys2Proof.Machine

variable {s t x y : State} {r : Race} {ax j : AxisIx} {a b d : Axis} {c : Conds} {q : Plan} {e n : Entry}
  {es more : List Entry} {l : List Job} {target : Int} {w : Dir}

/-! ### Ends, whatever waits on the agenda -/

theorem headEnded_agenda {code : EndCode} :
    State.headEnded { x with agenda := l } a e code 0 = { x.headEnded a e code 0 with agenda := l } := by
  unfold State.headEnded State.ended
  rw [State.endMem, State.endMem, endCell_mem_congr (s := x) (t := { x with agenda := l }) (b' := false) rfl rfl]

theorem memoryWf_headEnded {code : EndCode} (h : s.memoryWf = true) : (s.headEnded a e code 0).memoryWf = true := by
  unfold State.headEnded
  rw [← endCell_eq_ended]
  exact memoryWf_endCell h

theorem positional_moves (h : e.kind.positional = true) : e.kind.moves = true := by
  cases hk : e.kind <;> simp_all [MotionKind.positional, MotionKind.moves]

/-- The code word of a move that completes names its fly outcome (R17, R21). -/
theorem completedMove_codeWord (hs : e.status = .active) (hk : e.kind.positional = true) :
    (endResult a e .completed 0).codeWord = bytes4 1 0 e.fly.bits 0 := by
  have hf : (endResult a e .completed 0).fly = e.fly := by
    unfold endResult
    dsimp only
    rw [hs, positional_moves hk]
    rfl
  unfold Result.codeWord
  rw [hf]
  rfl

/-! ### Standstill (R53) -/

theorem stood_prof (h : a.moving = true) : a.stood.prof.speedSq = 0 ∧ a.stood.prof.plan = none ∧
    a.stood.prof.dir = a.prof.dir := by
  unfold Axis.stood
  rw [if_pos h]
  exact ⟨rfl, rfl, rfl⟩

theorem stood_withSeen : ∃ c', ({ a with seen := c } : Axis).stood = { a.stood with seen := c' } := by
  have hm : ({ a with seen := c } : Axis).moving = a.moving := rfl
  unfold Axis.stood
  rw [hm]
  split
  · exact ⟨_, rfl⟩
  · exact ⟨c, rfl⟩

/-- An axis whose last order has completed (R45, R53). -/
def Axis.completed (a : Axis) (e : Entry) : Axis :=
  { a.stood.headEnded e [] .completed with state := .idle, stopCause := .none }

theorem completed_withSeen : ∃ c', ({ a with seen := c } : Axis).completed e = { a.completed e with seen := c' } := by
  obtain ⟨c', hc⟩ := stood_withSeen (a := a) (c := c)
  refine ⟨c', ?_⟩
  unfold Axis.completed
  rw [hc]
  rfl

theorem headEnded_ref {code : EndCode} (h : e.kind.positional = true) :
    (a.headEnded e es code).ref = a.ref ∧ (a.headEnded e es code).referenced = a.referenced := by
  have hk : e.kind ≠ .reference := by
    intro k
    rw [k] at h
    cases h
  unfold Axis.headEnded
  exact ⟨if_neg hk, if_neg fun k => hk k.1⟩

theorem completed_phase (h : e.kind.positional = true) : (a.completed e).ref = a.ref := by
  have h1 : (a.completed e).ref = (a.stood.headEnded e [] .completed).ref := rfl
  rw [h1, (headEnded_ref h).1, stood_eq]

theorem completed_undisturbed (hm : a.moving = true) (h : a.undisturbed) : (a.completed e).undisturbed := by
  refine undisturbed_congr (a := a) ?_ ?_ (stood_prof hm).2.2 h
  · exact (show (a.completed e).setup = a.stood.setup from rfl).trans (by rw [stood_eq])
  · exact (show (a.completed e).inputs = a.stood.inputs from rfl).trans (by rw [stood_eq])

/-- The last move of a list arrives (R53). -/
theorem arrive_alone (hw : x.watches = []) (hr : b.state = .running) (hl : b.list = [e]) (hs : e.status = .active)
    (hk : e.kind.positional = true) :
    (x.setAxis ax b).arrive ax = (x.headEnded b e .completed 0).setAxis ax (b.completed e) := by
  have hf := finishHead_setAxis (x := x) (ax := ax) (code := .completed) (.inl hw) hl hs
  unfold State.arrive
  dsimp only
  rw [axis_setAxis_same, hr, hl]
  dsimp only
  cases hkk : e.kind <;> rw [hkk] at hk
  case moveAbs => exact hf
  case moveRel => exact hf
  all_goals cases hk

theorem arriveIfDue_done (h : b.planDone = true) :
    (x.setAxis ax b).arriveIfDue ax = ((x.setAxis ax b).arrive ax).settle ax := by
  unfold State.arriveIfDue
  rw [axis_setAxis_same, if_pos h]

theorem State.RunsMove.planDone (h : s.RunsMove ax a e es q b) (hq : q.moved + 1 = q.length) : b.planDone = true := by
  rw [planDone_eq h.onward.plan]
  simp [hq]

/-- What the sequencer does at the end of a plan, no flying decision being due: arrival. -/
theorem progress_arrives (h : s.RunsMove ax a e es q b) (hq : q.moved + 1 = q.length)
    (hd : e.opts.fly = false ∨ e.decided = true) :
    (x.setAxis ax { b with seen := c }).progress ax
      = (((x.setAxis ax { b with seen := c }).arrive ax).settle ax).indexSpan ax := by
  have hdec : (x.setAxis ax { b with seen := c }).decideIfDue ax b.prof.accel = x.setAxis ax { b with seen := c } :=
    decideIfDue_undue (commitReached_false (q := { q with moved := q.moved + 1 }) (by exact h.behind)
      (by exact h.onward.plan) (hd.imp_right .inl))
  rw [progress_move (by exact h.settledPlan) hdec (by exact h.behind) h.positional,
    arriveIfDue_done (by exact h.planDone hq)]

theorem exec_pulse_completes (h : s.RunsMove ax a e [] q b) (hw : s.watches = []) (hs : e.status = .active)
    (hq : q.moved + 1 = q.length) (hd : e.opts.fly = false ∨ e.decided = true) :
    ∃ c, exec (.outputPulse ax r) s
      = .next ((s.headEnded b e .completed 0).setAxis ax { b.completed e with seen := c }) := by
  refine exec_pulse_move h hw (completed_undisturbed h.onward.moving h.stays) h.agenda rfl (by
    simp [State.headEnded, State.ended]) fun l c => ?_
  obtain ⟨c', hc⟩ := completed_withSeen (a := b) (c := c) (e := e)
  refine ⟨c', ?_⟩
  have hphase : ({ b.completed e with seen := c' } : Axis).ref.phase = .none := by
    show (b.completed e).ref.phase = _
    rw [completed_phase h.positional, h.noPhase]
  rw [progress_arrives h hq hd, arrive_alone (x := { s with agenda := l }) (b := { b with seen := c }) hw (by exact h.runs) (by exact h.behind) hs
    h.positional, settle_eq_self (.inr (by rw [axis_setAxis_same]; rfl)), hc, indexSpan_setAxis (by exact hphase),
    headEnded_agenda]
  rfl

/-! ### The successor of a bound pair (R59, R81) -/

/-- A MOVE_ABS or MOVE_REL that passes its start checks departs, from standstill or not (R50, R59). -/
theorem startMove_goes (ht : target = e.targetFrom a.setup a.commanded.toInt)
    (hd : w = e.dirFrom a.commanded.toInt target) (hne : target ≠ a.commanded.toInt) (hr : a.readyActive = true)
    (hl : a.limitActive w = false) (ha : a.allowsTarget e.kind target) :
    (x.setAxis ax a).startMove ax e = (x.setAxis ax a).startMoving ax target w := by
  obtain ⟨h1, h2, h3, h4⟩ := ha
  unfold State.startMove
  dsimp only
  rw [axis_setAxis_same, ← ht, ← hd, if_neg (by simp [hr]), if_neg (by simp [hl]), windowFails_none _ _ _ h1 h2 h3]
  dsimp only
  rw [if_neg (fun k => by
    simp only [Bool.and_eq_true, decide_eq_true_eq, Bool.not_eq_true'] at k
    rw [h4 k.1.2 k.1.1] at k
    cases k.2), if_neg hne]

/-- A moving axis with the next order of its list under way (R81). -/
def Axis.passedOn (a : Axis) (n : Entry) (more : List Entry) (target : Int) (w : Dir) : Axis :=
  Axis.planned { a with list := { n with target := target, dir := w } :: more } a.prof.accel
    { n with target := target, dir := w } a.setup.floor

theorem passedOn_plan {p : Plan} (h : (a.passedOn n more target w).prof.plan = some p) :
    p.length = distanceTo a.commanded target w ∧ p.moved = 0 ∧ p.startSq = a.prof.speedSq := by
  have h0 : (a.passedOn n more target w).prof.plan = some (Axis.headPlan
    { a with list := { n with target := target, dir := w } :: more } a.prof.accel { n with target := target, dir := w }
    a.setup.floor) := rfl
  rw [h0, Option.some.injEq] at h
  rw [← h]
  unfold Axis.headPlan
  obtain ⟨h1, h2, h3, -⟩ := plan_start (orderRates a.setup { n with target := target, dir := w }) a.prof.speedSq
    a.prof.accel (distanceTo a.commanded target w) (Axis.targetSpeed
      { a with list := { n with target := target, dir := w } :: more } { n with target := target, dir := w })
    a.setup.floor (n.opts.fly && n.kind.positional)
  exact ⟨h1, h2, h3⟩

/-- A move without FLY departs from a moving axis without a floor step (R59, R81). -/
theorem startMoving_moving (hl : a.list = n :: more) (hm : a.moving = true) (hk : n.kind.positional = true)
    (hf : n.opts.fly = false) :
    (x.setAxis ax a).startMoving ax target w = x.setAxis ax (a.passedOn n more target w) := by
  have hc : (a.passedOn n more target w).commitReached = false :=
    commitReached_false (e := { n with target := target, dir := w }) rfl rfl (.inl hf)
  have hj : (a.passedOn n more target w).edgeDecelReached = false :=
    edgeDecelReached_of_kind (e := { n with target := target, dir := w }) rfl (fun k => by
      rw [show n.kind = .jog from k] at hk
      cases hk)
  have hm' : ({ a with list := { n with target := target, dir := w } :: more } : Axis).moving = true := hm
  have hp : ((x.setAxis ax { a with list := { n with target := target, dir := w } :: more }).planHead ax a.prof.accel
      { n with target := target, dir := w } a.setup.floor) = x.setAxis ax (a.passedOn n more target w) := planHead_setAxis
  unfold State.startMoving
  rw [updHead_setAxis _ hl]
  dsimp only
  rw [axis_setAxis_same, if_pos hm', head?_setAxis, axis_setAxis_same]
  dsimp only [List.head?_cons]
  unfold State.planAndDecide
  rw [hp, decideIfDue_undue hc, edgeDecelIfDue_setAxis, hj, if_neg (by decide)]

theorem begun_setAxis (hl : a.list = e :: es) :
    (x.setAxis ax a).begun ax n = (x.writeCellState n.cell activeByte).setAxis ax
      { a with list := n.started :: es, state := .running, stopCause := .none } := by
  unfold State.begun
  rw [show (x.setAxis ax a).writeCellState n.cell activeByte = (x.writeCellState n.cell activeByte).setAxis ax a from rfl,
    updHead_setAxis _ hl, setAxisState_setAxis]

/-- An axis on which the successor of a completed move has begun, before its start checks. -/
def Axis.handedOn (a : Axis) (e n : Entry) (more : List Entry) : Axis :=
  { a.headEnded e (n :: more) .completed with list := n.started :: more, state := .running, stopCause := .none }

theorem handedOn_referenced (hk : e.kind.positional = true) : (a.handedOn e n more).referenced = a.referenced :=
  (headEnded_ref (es := n :: more) (code := .completed) hk).2

theorem handedOn_ref (hk : e.kind.positional = true) : (a.handedOn e n more).ref = a.ref :=
  (headEnded_ref (es := n :: more) (code := .completed) hk).1

/-- A bound MOVE_ABS starts behind the move that ends before it, on from the speed of that moment (R59, R81). -/
theorem startSuccessor_moves (hl : b.list = e :: n :: more) (hs : e.status = .active) (hk : e.kind.positional = true)
    (hnk : n.kind = .moveAbs) (hf : n.opts.fly = false) (hm : b.moving = true) (ht : target = n.params.p1.toInt)
    (hw : w = dirTo b.commanded.toInt target) (hne : target ≠ b.commanded.toInt) (hrd : b.readyActive = true)
    (hlim : b.limitActive w = false) (ha : b.allowsTarget .moveAbs target) :
    (x.setAxis ax b).startSuccessor ax .completed
      = ((x.headEnded b e .completed 0).writeCellState n.cell activeByte).setAxis ax
          ((b.handedOn e n more).passedOn n.started more target w) := by
  have hhead : ((x.headEnded b e .completed 0).setAxis ax (b.headEnded e (n :: more) .completed)).head? ax = some n := by
    rw [head?_setAxis]
    rfl
  have hall : (b.handedOn e n more).allowsTarget n.started.kind target := by
    obtain ⟨h1, h2, h3, h4⟩ := ha
    exact ⟨h1, h2, h3, fun k1 _ => (handedOn_referenced hk).trans (h4 k1 rfl)⟩
  have htarget : target = n.started.targetFrom (b.handedOn e n more).setup (b.handedOn e n more).commanded.toInt := by
    unfold Entry.targetFrom
    rw [show n.started.kind = .moveAbs from hnk]
    exact ht
  have hdir : w = n.started.dirFrom (b.handedOn e n more).commanded.toInt target := by
    unfold Entry.dirFrom
    rw [show n.started.kind = .moveAbs from hnk]
    exact hw
  unfold State.startSuccessor
  rw [endHead_setAxis hl hs, startOrder_eq hhead, begun_setAxis rfl]
  unfold State.startKind
  rw [hnk]
  exact (startMove_goes (a := b.handedOn e n more) htarget hdir hne hrd hlim hall).trans
    (startMoving_moving rfl hm (by rw [show n.started.kind = .moveAbs from hnk]; rfl) hf)

/-- The end of a bound pair's first move (R59). -/
theorem arrive_pair (hr : b.state = .running) (hl : b.list = e :: n :: more) (hk : e.kind.positional = true)
    (hn : n.bound = true) : (x.setAxis ax b).arrive ax = (x.setAxis ax b).startSuccessor ax .completed := by
  unfold State.arrive
  dsimp only
  rw [axis_setAxis_same, hr, hl]
  dsimp only
  cases hkk : e.kind <;> rw [hkk] at hk
  case moveAbs => exact if_pos hn
  case moveRel => exact if_pos hn
  all_goals cases hk

theorem exec_pulse_succeeds (h : s.RunsMove ax a e (n :: more) q b) (hw : s.watches = []) (hs : e.status = .active)
    (hq : q.moved + 1 = q.length) (hd : e.opts.fly = false ∨ e.decided = true) (hn : n.bound = true)
    (hnk : n.kind = .moveAbs) (hf : n.opts.fly = false) (ht : target = n.params.p1.toInt)
    (hdir : w = dirTo b.commanded.toInt target) (hne : target ≠ b.commanded.toInt)
    (hlim : w = a.prof.dir) (ha : b.allowsTarget .moveAbs target) :
    ∃ c, exec (.outputPulse ax r) s = .next (((s.headEnded b e .completed 0).writeCellState n.cell activeByte).setAxis ax
      { (b.handedOn e n more).passedOn n.started more target w with seen := c }) := by
  have hgo : b.limitActive w = false := by
    rw [hlim, ← h.onward.dir]
    exact h.stays.2.1
  refine exec_pulse_move (d := (b.handedOn e n more).passedOn n.started more target w) h hw
    (undisturbed_congr (a := b) rfl rfl rfl h.stays) h.agenda rfl (by
      simp [State.headEnded, State.ended, State.writeCellState, State.writeByte]) fun l c => ⟨c, ?_⟩
  have hphase : ((b.handedOn e n more).passedOn n.started more target w).ref.phase = .none :=
    (congrArg RefCtl.phase (handedOn_ref (n := n) (more := more) h.positional)).trans h.noPhase
  rw [progress_arrives h hq hd, arrive_pair (by exact h.runs) (by exact h.behind) h.positional hn,
    startSuccessor_moves (x := { s with agenda := l }) (b := { b with seen := c }) (by exact h.behind) hs h.positional hnk
      hf h.onward.moving ht hdir hne h.stays.1 hgo ha,
    settle_eq_self (.inl (by rw [axis_setAxis_same]; exact nofun)), headEnded_agenda]
  exact indexSpan_setAxis hphase

end Sys2Proof.Machine
end

section
/-!
The output pulse (O33) put together.
-/

open Sys2Proof Sys2Proof.Machine

namespace Sys2Proof.Machine

variable {s t x y : State} {r : Race} {ax j : AxisIx} {a b : Axis} {c : Conds} {q : Plan} {e n : Entry}
  {es more : List Entry} {target : Int} {w : Dir} {m : Nat}

theorem targetSpeed_congr (hs : b.setup = a.setup) (ho : b.prof.override = a.prof.override) :
    b.targetSpeed e = a.targetSpeed e := by
  unfold Axis.targetSpeed
  rw [hs, ho]

theorem junctionSpeed_congr {cap : Nat} (hs : b.setup = a.setup) (ho : b.prof.override = a.prof.override) :
    b.junctionSpeed e n cap = a.junctionSpeed e n cap := by
  unfold Axis.junctionSpeed
  rw [hs, targetSpeed_congr hs ho, targetSpeed_congr hs ho]

theorem allowsTarget_congr {k : MotionKind} (hs : b.setup = a.setup) (hr : b.referenced = a.referenced)
    (h : a.allowsTarget k target) : b.allowsTarget k target := by
  unfold Axis.allowsTarget at h ⊢
  rw [hs, hr]
  exact h

/-- A position that lies ahead in a direction lies in that direction (R50). -/
theorem dirTo_of_ahead {p : Int} (h : 0 < (target - p) * w.sign) : dirTo p target = w := by
  unfold dirTo
  cases w <;> simp only [Dir.sign] at h
  · exact if_neg (by omega)
  · exact if_pos (by omega)

/-- The state byte of another cell written leaves what an ended cell reads. -/
theorem endReads_writeCellState {n' : Nat} {v : Byte} {k f cmd fb el : Word} (hne : m ≠ n')
    (h : s.endReads m k f cmd fb el) : (s.writeCellState n' v).endReads m k f cmd fb el := by
  have hb : ∀ i, i < 64 → (s.writeCellState n' v).readByte (0x800 + 64 * m + i) = s.readByte (0x800 + 64 * m + i) :=
    fun i hi => readByte_writeCellState_other (by omega)
  have hw : ∀ o, o + 4 ≤ 64 → (s.writeCellState n' v).readWord (0x800 + 64 * m + o) = s.readWord (0x800 + 64 * m + o) :=
    fun o ho => readWord_congr fun i hi => by
      rw [Nat.add_assoc]
      exact hb (o + i) (by omega)
  unfold State.endReads at h ⊢
  rw [hw 0x2C (by omega), hw 0x30 (by omega), hw 0x34 (by omega), hw 0x38 (by omega), hw 0x3C (by omega)]
  exact ⟨(hb 0 (by omega)).trans h.1, h.2⟩

theorem headEnded_reads (hm : s.memoryWf = true) (hn : e.cell < 480) (hs : e.status = .active)
    (hk : e.kind.positional = true) :
    (s.headEnded b e .completed 0).endReads e.cell (bytes4 1 0 e.fly.bits 0) 0 b.commanded b.feedback
      (BitVec.ofNat 32 e.elapsed) := by
  have h := endMem_reads (t := s.headEnded b e .completed 0) hm hn rfl
  rw [completedMove_codeWord hs hk] at h
  have hel : (endResult b e .completed 0).elapsed = e.elapsed := if_pos hs
  rw [hel] at h
  exact h

theorem State.RunsMove.speed {sq : Nat} (h : s.RunsMove ax a e es q b)
    (hsq : sq = max (sqOf a.setup.floor) (min (sqOf a.setup.maxSpeed) (q.sqAt (q.moved + 1)))) : b.prof.speedSq = sq := by
  rw [h.onward.speedSq, hsq]
  rfl

theorem State.RunsMove.ahead (h : s.RunsMove ax a e es q b) :
    distanceTo b.commanded target w = ((target - (a.commanded.toInt + a.prof.dir.sign)) * w.sign).toNat := by
  unfold distanceTo
  rw [h.here]

theorem State.RunsMove.commandedWord (h : s.RunsMove ax a e es q b) :
    b.commanded = BitVec.ofInt 32 (a.commanded.toInt + a.prof.dir.sign) := h.onward.commanded

/-- Settles O33: the pulse itself, along a plan, at its end and at its commit point. -/
theorem outputPulseMovesPosition : Obligations.OutputPulseMovesPosition := by
  refine ⟨fun s ax r hp hcalm hr hm hd hf h1 h2 => pulse_moves hp hcalm hr hm hd hf h1 h2, ?_⟩
  intro s ax r a e es q here sq hm hp hq hw ha hrun hmv hu hl hs hn hk hph hst hnr hpl hhere h1 h2 hsq
  obtain ⟨b, hb⟩ : ∃ b, b = (s.axis ax).pulsed := ⟨_, rfl⟩
  have h : s.RunsMove ax a e es q b := ⟨hq, ha, hrun, hmv, hu, hl, hk, hph, hst, hnr, hpl, hhere ▸ h1, hhere ▸ h2, hb⟩
  have hcmd : b.commanded.toInt = here := h.here.trans hhere.symm
  have hword : b.commanded = BitVec.ofInt 32 here := hhere ▸ h.commandedWord
  have hspeed := h.speed hsq
  refine ⟨fun hlen hd => ?_, fun hlen hd => ⟨fun hes => ?_, ?_⟩, fun hlen hf hd hc hdir hrem => ⟨fun reason hr => ?_, ?_⟩⟩
  · obtain ⟨c, hx⟩ := exec_pulse_onward (r := r) h hw hlen hd
    refine ⟨_, hx, ?_, ?_, ?_, ?_, ?_, ?_, ?_, fun j hj => axis_setAxis_other _ _ hj, rfl⟩
    all_goals rw [axis_setAxis_same]
    · exact h.runs
    · exact h.behind
    · exact hcmd
    · exact hspeed
    · exact h.onward.accel
    · exact h.onward.phase
    · exact h.onward.plan
  · subst hes
    obtain ⟨c, hx⟩ := exec_pulse_completes (r := r) h hw hs hlen hd
    obtain ⟨hsp, hnp, -⟩ := stood_prof h.onward.moving
    refine ⟨_, hx, ?_, ?_, ?_, ?_, ?_, ?_, rfl, rfl, fun k hk => ?_, fun j hj => axis_setAxis_other _ _ hj, rfl⟩
    · exact (congrArg Axis.state (axis_setAxis_same _ _ _)).trans rfl
    · exact (congrArg Axis.list (axis_setAxis_same _ _ _)).trans rfl
    · exact (congrArg Axis.moving (axis_setAxis_same _ _ _)).trans (stood_moving (a := b))
    · exact (congrArg (fun a : Axis => a.prof.speedSq) (axis_setAxis_same _ _ _)).trans hsp
    · exact (congrArg (fun a : Axis => a.prof.plan) (axis_setAxis_same _ _ _)).trans hnp
    · rw [← hword, ← h.onward.feedback]
      exact endReads_of_mem rfl (headEnded_reads hm hn hs hk)
    · exact endMem_other rfl hk
  · intro n more target hes hb hnk hnf hnc ht hal hpos
    subst hes
    have hdirTo : a.prof.dir = dirTo b.commanded.toInt target := by rw [hcmd, dirTo_of_ahead hpos]
    have hne : target ≠ b.commanded.toInt := by
      rw [hcmd]
      rintro rfl
      simp at hpos
    obtain ⟨c, hx⟩ := exec_pulse_succeeds (r := r) h hw hs hlen hd hb hnk hnf ht hdirTo hne rfl
      (allowsTarget_congr h.onward.setup h.onward.referenced hal)
    have hcell : e.cell ≠ n.cell := by
      have := head_not_behind (ax := ax) hp (ha ▸ hl)
      simp only [cellsOf, List.map_cons, List.mem_cons, not_or] at this
      exact this.1
    obtain ⟨p1, p2, p3⟩ := passedOn_plan (a := b.handedOn e n more) (n := n.started) (more := more) (target := target)
      (w := a.prof.dir) rfl
    refine ⟨_, hx, ?_, ?_, ?_, ⟨{ n.started with target := target, dir := a.prof.dir }, ?_, rfl, rfl, rfl, rfl, rfl⟩, ?_, ?_,
      ?_, ?_, rfl, rfl, fun j hj => axis_setAxis_other _ _ hj⟩
    · rw [axis_setAxis_same]
      rfl
    · rw [← hword, ← h.onward.feedback]
      exact endReads_of_mem rfl (endReads_writeCellState hcell (headEnded_reads hm hn hs hk))
    · exact (readByte_of_mem rfl _).trans (writeCellState_reads (memoryWf_headEnded hm) hnc)
    all_goals rw [axis_setAxis_same]
    · rfl
    · exact hspeed
    · exact h.onward.dir
    · have hmoves : Axis.moving ((b.handedOn e n more).passedOn n.started more target a.prof.dir) = true := by
        unfold Axis.moving
        simp [Axis.passedOn, Axis.planned]
      exact hmoves
    · exact ⟨_, rfl, p2, p3.trans hspeed, p1.trans (hhere ▸ h.ahead)⟩
  · obtain ⟨c, hx⟩ := exec_pulse_declines (r := r) h hw hlen hf hd hc hr
    refine ⟨_, hx, ?_, ?_, ?_, ?_, fun j hj => axis_setAxis_other _ _ hj, rfl⟩
    all_goals rw [axis_setAxis_same]
    · exact h.runs
    · exact h.onward.plan
    · exact hspeed
  · intro n more hes hr
    subst hes
    have hdist : distanceTo b.commanded e.target e.dir = (e.remaining here).toNat := hhere ▸ h.ahead
    obtain ⟨c, hx⟩ := exec_pulse_takes (r := r) h hw hf hd hc hr (by omega)
    obtain ⟨p1, p2, p3, p4⟩ := flown_headPlan (flown_plan (a := b) (e := e) (n := n) (more := more))
    refine ⟨_, hx, ?_, ?_, ?_, rfl, fun j hj => axis_setAxis_other _ _ hj, rfl⟩
    all_goals rw [axis_setAxis_same]
    · exact h.runs
    · rfl
    · refine ⟨_, rfl, p2, p3.trans hspeed, p4.trans ?_, p1.trans hdist⟩
      rw [junctionSpeed_congr h.onward.setup h.onward.override, targetSpeed_congr h.onward.setup h.onward.override]

end Sys2Proof.Machine
end

section
/-!
What the action of a watch leaves of the watch table (R119, R121): the operations of the sequencer do not touch it.
-/

open Sys2Proof Sys2Proof.Machine

namespace Sys2Proof.Machine

/-! ### The state, the report, memory -/

@[simp] theorem watches_updProf (s : State) (ax : AxisIx) (f : Profile → Profile) :
    (s.updProf ax f).watches = s.watches := rfl

@[simp] theorem watches_updRef (s : State) (ax : AxisIx) (f : RefCtl → RefCtl) :
    (s.updRef ax f).watches = s.watches := rfl

@[simp] theorem watches_setAxisState (s : State) (ax : AxisIx) (st : AxisState) (cause : StopCause) :
    (s.setAxisState ax st cause).watches = s.watches := rfl

@[simp] theorem watches_updHead (s : State) (ax : AxisIx) (f : Entry → Entry) :
    (s.updHead ax f).watches = s.watches := rfl

@[simp] theorem watches_addChecks (s : State) (ax : AxisIx) : (s.addChecks ax).watches = s.watches := rfl

@[simp] theorem watches_setGate (s : State) (g : Fin 16) (v : Bool) : (s.setGate g v).watches = s.watches := rfl

@[simp] theorem watches_writeCellState (s : State) (n : Nat) (b : Byte) :
    (s.writeCellState n b).watches = s.watches := rfl

@[simp] theorem watches_endCell (s : State) (n : Nat) (r : Result) (notify : Bool) :
    (s.endCell n r notify).watches = s.watches := by rw [endCell_eq]

/-! ### How orders end -/

@[simp] theorem watches_recordFault (s : State) (sc : Scope) (code detail cell : Nat) :
    (s.recordFault sc code detail cell).watches = s.watches := by
  unfold State.recordFault
  (repeat' split) <;> simp

@[simp] theorem watches_setSpeed (s : State) (ax : AxisIx) (sq : Nat) (accel : Int) (phase : RampPhase) :
    (s.setSpeed ax sq accel phase).watches = s.watches := by
  unfold State.setSpeed
  split <;> simp

@[simp] theorem watches_stand (s : State) (ax : AxisIx) : (s.stand ax).watches = s.watches := by
  unfold State.stand
  split <;> simp

@[simp] theorem watches_beginStop (s : State) (ax : AxisIx) (r : Rates) (bound : Option Nat) :
    (s.beginStop ax r bound).watches = s.watches := rfl

@[simp] theorem watches_endEntry (s : State) (ax : AxisIx) (code : EndCode) (reason : Nat) (e : Entry) :
    (s.endEntry ax code reason e).watches = s.watches := by simp [State.endEntry]

@[simp] theorem watches_dropBinding (s : State) (ax : AxisIx) : (s.dropBinding ax).watches = s.watches := by
  unfold State.dropBinding
  (repeat' split) <;> simp

@[simp] theorem watches_endHead (s : State) (ax : AxisIx) (code : EndCode) (reason : Nat) :
    (s.endHead ax code reason).watches = s.watches := by
  unfold State.endHead
  (repeat' split) <;> simp

@[simp] theorem watches_endFlushed (s : State) (ax : AxisIx) (es : List Entry) :
    (s.endFlushed ax es).watches = s.watches := by
  unfold State.endFlushed
  induction es generalizing s with
  | nil => rfl
  | cons e es ih => exact (ih _).trans (watches_endEntry ..)

@[simp] theorem watches_flushTail (s : State) (ax : AxisIx) :
    (s.flushTail ax).watches = s.watches := by simp [State.flushTail]

@[simp] theorem watches_flushAll (s : State) (ax : AxisIx) :
    (s.flushAll ax).watches = s.watches := by simp [State.flushAll]

@[simp] theorem watches_finishHead (s : State) (ax : AxisIx) (code : EndCode) :
    (s.finishHead ax code).watches = s.watches := by simp [State.finishHead]

@[simp] theorem watches_becomeFaulted (s : State) (ax : AxisIx) :
    (s.becomeFaulted ax).watches = s.watches := by simp [State.becomeFaulted]

@[simp] theorem watches_faultList (s : State) (ax : AxisIx) (code : Nat) :
    (s.faultList ax code).watches = s.watches := by
  unfold State.faultList
  (repeat' split) <;> simp

@[simp] theorem watches_faultRamp (s : State) (ax : AxisIx) (rates : Rates) :
    (s.faultRamp ax rates).watches = s.watches := by
  unfold State.faultRamp
  dsimp only
  split <;> simp

@[simp] theorem watches_firstFault (s : State) (ax : AxisIx) (code : Nat) (reaction : Reaction) :
    (s.firstFault ax code reaction).watches = s.watches := by
  unfold State.firstFault
  dsimp only
  split <;> simp

@[simp] theorem watches_react (s : State) (ax : AxisIx) (code : Nat) (reaction : Reaction) :
    (s.react ax code reaction).watches = s.watches := by
  unfold State.react
  (repeat' split) <;> simp

@[simp] theorem watches_axisFault (s : State) (ax : AxisIx) (code detail : Nat) (reaction : Reaction) :
    (s.axisFault ax code detail reaction).watches = s.watches := by simp [State.axisFault]

@[simp] theorem watches_limitFault (s : State) (ax : AxisIx) (d : Dir) : (s.limitFault ax d).watches = s.watches := by
  unfold State.limitFault
  split <;> simp

@[simp] theorem watches_notReadyFault (s : State) (ax : AxisIx) :
    (s.notReadyFault ax).watches = s.watches := by simp [State.notReadyFault]

/-! ### Gates -/

@[simp] theorem watches_grantClaim (s : State) (e : Entry) : (s.grantClaim e).watches = s.watches := by
  unfold State.grantClaim
  split <;> simp

/-! ### Reference runs -/

@[simp] theorem watches_setPhase (s : State) (ax : AxisIx) (ph : RefPhase) :
    (s.setPhase ax ph).watches = s.watches := rfl

@[simp] theorem watches_refFail (s : State) (ax : AxisIx) (ph : RefPhase) (reason : Nat) :
    (s.refFail ax ph reason).watches = s.watches := by simp [State.refFail]

@[simp] theorem watches_seekBackFail (s : State) (ax : AxisIx) :
    (s.seekBackFail ax).watches = s.watches := by simp [State.seekBackFail]

@[simp] theorem watches_beginMotion (s : State) (ax : AxisIx) (d : Dir) (plan : Option Plan) (speed : Nat) (phase : RampPhase) :
    (s.beginMotion ax d plan speed phase).watches = s.watches := by simp [State.beginMotion]

@[simp] theorem watches_refComplete (s : State) (ax : AxisIx) :
    (s.refComplete ax).watches = s.watches := by simp [State.refComplete]

@[simp] theorem watches_beginApproach (s : State) (ax : AxisIx) (e : Entry) :
    (s.beginApproach ax e).watches = s.watches := by
  unfold State.beginApproach
  dsimp only
  split <;> simp

@[simp] theorem watches_beginSeekBack (s : State) (ax : AxisIx) (e : Entry) :
    (s.beginSeekBack ax e).watches = s.watches := by
  unfold State.beginSeekBack
  dsimp only
  (repeat' split) <;> simp

@[simp] theorem watches_beginCreep (s : State) (ax : AxisIx) (e : Entry) :
    (s.beginCreep ax e).watches = s.watches := by
  unfold State.beginCreep
  dsimp only
  (repeat' split) <;> simp

@[simp] theorem watches_beginClear (s : State) (ax : AxisIx) (e : Entry) :
    (s.beginClear ax e).watches = s.watches := by
  unfold State.beginClear
  dsimp only
  (repeat' split) <;> simp

@[simp] theorem watches_beginOffset (s : State) (ax : AxisIx) (e : Entry) :
    (s.beginOffset ax e).watches = s.watches := by
  unfold State.beginOffset
  dsimp only
  (repeat' split) <;> simp

@[simp] theorem watches_beginClearPulse (s : State) (ax : AxisIx) (e : Entry) :
    (s.beginClearPulse ax e).watches = s.watches := rfl

@[simp] theorem watches_beginPhase (s : State) (ax : AxisIx) (e : Entry) (ph : RefPhase) :
    (s.beginPhase ax e ph).watches = s.watches := by cases ph <;> simp [State.beginPhase]

@[simp] theorem watches_pauseThen (s : State) (ax : AxisIx) (e : Entry) (next : RefPhase) :
    (s.pauseThen ax e next).watches = s.watches := by
  unfold State.pauseThen
  split <;> simp

@[simp] theorem watches_startReference (s : State) (ax : AxisIx) (e : Entry) :
    (s.startReference ax e).watches = s.watches := by
  unfold State.startReference
  dsimp only
  (repeat' split) <;> simp

@[simp] theorem watches_refStood (s : State) (ax : AxisIx) (e : Entry) : (s.refStood ax e).watches = s.watches := by
  unfold State.refStood
  dsimp only
  (repeat' split) <;> simp

@[simp] theorem watches_stopReference (s : State) (ax : AxisIx) (e : Entry) (cause : StopCause) (abrupt : Bool) :
    (s.stopReference ax e cause abrupt).watches = s.watches := by
  unfold State.stopReference
  dsimp only
  (repeat' split) <;> simp

/-! ### Starting orders -/

@[simp] theorem watches_planHead (s : State) (ax : AxisIx) (a0 : Int) (e : Entry) (endSpeed : Nat) :
    (s.planHead ax a0 e endSpeed).watches = s.watches := rfl

@[simp] theorem watches_claimSecond (s : State) (n : Entry) : (s.claimSecond n).watches = s.watches := by
  unfold State.claimSecond
  split <;> simp

@[simp] theorem watches_decideFly (s : State) (ax : AxisIx) (a0 : Int) : (s.decideFly ax a0).watches = s.watches := by
  unfold State.decideFly
  dsimp only
  (repeat' split) <;> simp

@[simp] theorem watches_decideIfDue (s : State) (ax : AxisIx) (a0 : Int) :
    (s.decideIfDue ax a0).watches = s.watches := by
  unfold State.decideIfDue
  split <;> simp

@[simp] theorem watches_edgeDecelIfDue (s : State) (ax : AxisIx) : (s.edgeDecelIfDue ax).watches = s.watches := by
  unfold State.edgeDecelIfDue
  split <;> simp

@[simp] theorem watches_planAndDecide (s : State) (ax : AxisIx) (a0 : Int) (e : Entry) (endSpeed : Nat) :
    (s.planAndDecide ax a0 e endSpeed).watches = s.watches := by simp [State.planAndDecide]

@[simp] theorem watches_replan (s : State) (ax : AxisIx) (a0 : Int) : (s.replan ax a0).watches = s.watches := by
  unfold State.replan
  dsimp only
  (repeat' split) <;> simp

@[simp] theorem watches_replanRequest (s : State) (ax : AxisIx) : (s.replanRequest ax).watches = s.watches := by
  unfold State.replanRequest
  dsimp only
  (repeat' split) <;> simp

@[simp] theorem watches_startMoving (s : State) (ax : AxisIx) (target : Int) (d : Dir) :
    (s.startMoving ax target d).watches = s.watches := by
  unfold State.startMoving
  dsimp only
  (repeat' split) <;> simp

@[simp] theorem watches_startMove (s : State) (ax : AxisIx) (e : Entry) : (s.startMove ax e).watches = s.watches := by
  unfold State.startMove
  dsimp only
  (repeat' split) <;> simp

@[simp] theorem watches_startJog (s : State) (ax : AxisIx) (e : Entry) : (s.startJog ax e).watches = s.watches := by
  unfold State.startJog
  dsimp only
  (repeat' split) <;> simp

@[simp] theorem watches_startOrder (s : State) (ax : AxisIx) : (s.startOrder ax).watches = s.watches := by
  unfold State.startOrder
  (repeat' split) <;> simp

/-! ### Heads and gates -/

@[simp] theorem watches_startDue (s : State) (ax : AxisIx) : (s.startDue ax).watches = s.watches := by
  unfold State.startDue
  (repeat' split) <;> simp

theorem watches_settleGo (ax : AxisIx) : ∀ (n : Nat) (s : State), (State.settleGo ax n s).watches = s.watches
  | 0, _ => rfl
  | n + 1, s => by
      unfold State.settleGo
      split
      · rw [watches_settleGo ax n, watches_startDue]
      · rfl

@[simp] theorem watches_settle (s : State) (ax : AxisIx) : (s.settle ax).watches = s.watches := watches_settleGo _ _ _

@[simp] theorem watches_startSuccessor (s : State) (ax : AxisIx) (code : EndCode) :
    (s.startSuccessor ax code).watches = s.watches := by simp [State.startSuccessor]

@[simp] theorem watches_release (s : State) (ax : AxisIx) : (s.release ax).watches = s.watches := by
  unfold State.release
  dsimp only
  split <;> simp

theorem watches_foldl (f : State → AxisIx → State) (hf : ∀ s ax, (f s ax).watches = s.watches) :
    ∀ (l : List AxisIx) (s : State), (l.foldl f s).watches = s.watches
  | [], _ => rfl
  | ax :: l, s => (watches_foldl f hf l (f s ax)).trans (hf s ax)

@[simp] theorem watches_arbitrate (s : State) (g : Fin 16) : (s.arbitrate g).watches = s.watches := by
  unfold State.arbitrate
  dsimp only
  rw [watches_foldl _ watches_settle]
  split
  · split
    · rw [watches_release, watches_setGate, watches_foldl _ watches_release]
    · rw [watches_foldl _ watches_release]
  · rw [watches_foldl _ watches_release]

@[simp] theorem watches_openGate (s : State) (g : Fin 16) : (s.openGate g).watches = s.watches := by
  unfold State.openGate
  split <;> simp

/-! ### The sequencer at work -/

@[simp] theorem watches_holdStood (s : State) (ax : AxisIx) (e : Entry) : (s.holdStood ax e).watches = s.watches := by
  unfold State.holdStood
  split <;> simp

@[simp] theorem watches_arrive (s : State) (ax : AxisIx) : (s.arrive ax).watches = s.watches := by
  unfold State.arrive
  dsimp only
  (repeat' split) <;> simp

@[simp] theorem watches_arriveIfDue (s : State) (ax : AxisIx) : (s.arriveIfDue ax).watches = s.watches := by
  unfold State.arriveIfDue
  split <;> simp

@[simp] theorem watches_rampToEnd (s : State) (ax : AxisIx) (e : Entry) (cause : StopCause) (code : EndCode) (rates : Rates) :
    (s.rampToEnd ax e cause code rates).watches = s.watches := by
  unfold State.rampToEnd
  dsimp only
  split <;> simp

@[simp] theorem watches_flushIf (s : State) (ax : AxisIx) (flush : Bool) :
    (s.flushIf ax flush).watches = s.watches := by
  unfold State.flushIf
  split <;> simp

@[simp] theorem watches_endAtOnce (s : State) (ax : AxisIx) (code : EndCode) (flush : Bool) :
    (s.endAtOnce ax code flush).watches = s.watches := by
  unfold State.endAtOnce
  split <;> simp

@[simp] theorem watches_advanceRamp (s : State) (ax : AxisIx) (e : Entry) :
    (s.advanceRamp ax e).watches = s.watches := by
  unfold State.advanceRamp
  dsimp only
  split <;> simp

@[simp] theorem watches_advanceFly (s : State) (ax : AxisIx) (e : Entry) (rest : List Entry) :
    (s.advanceFly ax e rest).watches = s.watches := by
  unfold State.advanceFly
  dsimp only
  (repeat' split) <;> simp

@[simp] theorem watches_replanIfRunning (s : State) (ax : AxisIx) : (s.replanIfRunning ax).watches = s.watches := by
  unfold State.replanIfRunning
  split <;> simp

@[simp] theorem watches_newSpeed (s : State) (ax : AxisIx) (speed : Nat) :
    (s.newSpeed ax speed).watches = s.watches := by simp [State.newSpeed]

/-! ### Requests and actions (R61, R62, R64, R121) -/

@[simp] theorem stateOr_done (s t : State) : (Carried.done t).stateOr s = t := rfl

@[simp] theorem stateOr_notApplicable (s : State) (reason : Nat) : (Carried.notApplicable reason).stateOr s = s := rfl

theorem watches_stopAxis (s : State) (ax : AxisIx) (flush : Bool) :
    ((s.stopAxis ax flush).stateOr s).watches = s.watches := by
  unfold State.stopAxis
  dsimp only
  (repeat' split) <;> simp

theorem watches_hold (s : State) (ax : AxisIx) : ((s.hold ax).stateOr s).watches = s.watches := by
  unfold State.hold
  dsimp only
  (repeat' split) <;> simp

theorem watches_advance (s : State) (ax : AxisIx) : ((s.advance ax).stateOr s).watches = s.watches := by
  unfold State.advance
  dsimp only
  (repeat' split) <;> simp

/-- An action leaves the watch table. -/
theorem watches_perform (s : State) (act : Action) : (s.perform act).watches = s.watches := by
  cases act with
  | openGate g => exact watches_openGate s g
  | advance ax => exact watches_advance s ax
  | hold ax => exact watches_hold s ax
  | stop ax => exact watches_stopAxis s ax false
  | setSpeed ax v => exact watches_newSpeed s ax v
  | pulseOutput o w => rfl
  | latchOnly => rfl

end Sys2Proof.Machine
end

section
/-!
A watch that fires (R114, R117, R119 to R121): the firing itself, and its action as the control order it stands for.
-/

open Sys2Proof Sys2Proof.Machine

namespace Sys2Proof.Machine

variable {s t x y : State} {r : Race} {ax j : AxisIx} {a : Axis} {v m : Watch} {act : Action} {smp : Sample} {p : Params}

/-! ### Whether an action applies (R121) -/

theorem headIs_iff {f : MotionKind → Bool} : a.headIs f = true ↔ ∃ e es, a.list = e :: es ∧ f e.kind = true := by
  unfold Axis.headIs
  cases a.list <;> simp

theorem notReference_iff {k : MotionKind} : k.notReference = true ↔ k ≠ .reference := by
  cases k <;> simp [MotionKind.notReference]

theorem actionApplies_iff : s.actionApplies act = true ↔ s.actionDue act := by
  cases act <;> simp [State.actionApplies, State.actionDue, headIs_iff, notReference_iff, or_assoc]

/-- On an axis with an order a request of 6.4 ends DONE exactly where the action of the same name applies. -/
theorem stopAxis_done_iff (h : (s.axis ax).list ≠ []) :
    (∃ u, s.stopAxis ax false = .done u) ↔ s.actionDue (.stop ax) := by
  obtain ⟨e, es, hl⟩ := List.exists_cons_of_ne_nil h
  unfold State.stopAxis State.actionDue
  dsimp only
  rw [hl, List.head?_cons]
  cases (s.axis ax).state <;> simp [Carried.notApplicable]
  cases e.kind <;> simp

theorem hold_done_iff (h : (s.axis ax).list ≠ []) : (∃ u, s.hold ax = .done u) ↔ s.actionDue (.hold ax) := by
  obtain ⟨e, es, hl⟩ := List.exists_cons_of_ne_nil h
  unfold State.hold State.actionDue
  dsimp only
  rw [hl, List.head?_cons]
  cases (s.axis ax).state <;> simp [Carried.notApplicable]
  cases e.kind <;> simp

theorem advance_done_iff (h : (s.axis ax).list ≠ []) : (∃ u, s.advance ax = .done u) ↔ s.actionDue (.advance ax) := by
  obtain ⟨e, es, hl⟩ := List.exists_cons_of_ne_nil h
  unfold State.advance State.actionDue
  dsimp only
  rw [hl]
  cases (s.axis ax).state <;> simp [Carried.notApplicable] <;> cases e.kind <;> simp

theorem carryOut_done_iff {k : ControlKind} (ha : asControl act = some (k, ax)) (hl : (s.axis ax).list ≠ [])
    (hp : p.p1 = 0) : (∃ u, s.carryOut k (.axis ax) p = .done u) ↔ s.actionDue act := by
  cases act <;> cases ha
  · exact advance_done_iff hl
  · exact hold_done_iff hl
  · have h0 : (p.p1 != 0) = false := by simp [hp]
    unfold State.carryOut
    dsimp only
    rw [h0]
    exact stopAxis_done_iff hl

/-- An axis action does what the control order does. -/
theorem perform_asControl {k : ControlKind} {u : State} (ha : asControl act = some (k, ax)) (hp : p.p1 = 0)
    (h : s.carryOut k (.axis ax) p = .done u) : s.perform act = u := by
  have hu : ∀ c : Carried, c = .done u → c.stateOr s = u := fun c hc => by rw [hc]; rfl
  cases act <;> cases ha
  · exact hu _ h
  · exact hu _ h
  · have h0 : (p.p1 != 0) = false := by simp [hp]
    unfold State.carryOut at h
    dsimp only at h
    rw [h0] at h
    exact hu _ h

/-! ### The firing -/

theorem performed_of_due (h : s.actionDue m.action) : s.performed m = (s.recorded m).perform m.action :=
  if_pos (actionApplies_iff.2 h)

theorem performed_of_not_due (h : ¬ s.actionDue m.action) : s.performed m = s.recorded m :=
  if_neg fun k => h (actionApplies_iff.1 k)

theorem watches_performed : (s.performed m).watches = s.watches.map (fun y => if y.cell = m.cell then m else y) := by
  unfold State.performed
  split
  · exact watches_perform _ _
  · rfl

theorem memoryWf_performed (h : s.memoryWf = true) : (s.performed m).memoryWf = true := by
  unfold State.performed
  split
  · exact (frame_perform (Frame.refl ⟨false, false⟩ (s.recorded m))).wf (memoryWf_recorded h)
  · exact memoryWf_recorded h

/-- A watch, not on ELAPSED, that stays armed counts its repeats down (R120). -/
theorem fire_counts (hr : v.repeatLeft ≠ 1) (hq : v.quantity ≠ .elapsed) :
    s.fire v = { s.performed (s.fired v) with
      watches := (s.performed (s.fired v)).watches.map (fun y =>
        if y.cell = v.cell then { y with repeatLeft := y.repeatLeft - 1 } else y) } := by
  rw [fire_eq, if_neg hr]
  unfold State.updWatch
  congr 1
  refine List.map_congr_left fun y hy => ?_
  rw [watches_performed] at hy
  obtain ⟨z, hz, rfl⟩ := List.mem_map.1 hy
  have hc : (s.fired v).cell = v.cell := rfl
  simp only [beq_iff_eq]
  by_cases hzc : z.cell = (s.fired v).cell
  · rw [if_pos hzc, if_pos hc, if_pos hc]
    exact if_neg hq
  · rw [if_neg hzc, if_neg (hc ▸ hzc), if_neg (hc ▸ hzc)]

theorem evaluate_fires (hp : s.onePlace) (hv : v ∈ s.watches) (ht : v.truth = false)
    (hc : v.condition.holds v.threshold smp = true) : s.evaluate v.cell smp = s.fire v := by
  unfold State.evaluate
  rw [watchOf_of_mem hp hv]
  simp [ht, hc]

/-- The first part of O44: the firing of a watch. -/
theorem watch_fires (hm : s.memoryWf = true) (hp : s.onePlace) (hv : v ∈ s.watches) (hn : v.cell < 480)
    (ht : v.truth = false) (hc : v.condition.holds v.threshold smp = true) (hf : v.fireCount < 0xFFFFFFFF)
    (hq : v.quantity ≠ .elapsed) :
    ∃ (m : Watch) (s1 s2 : State), m = { v with
        truth := true, fireCount := v.fireCount + 1, lastCmd := m.lastCmd, lastFb := m.lastFb, lastNA := m.lastNA } ∧
      (m.lastNA = false ↔ s.actionDue v.action) ∧
      (∀ ax, v.quantity = .commandedPos ax ∨ v.quantity = .feedbackPos ax ∨ v.quantity = .speed ax ∨
          v.quantity = .followingError ax ∨ ((∃ i, v.quantity = .eventInput i) ∧
            ((∃ k, asControl v.action = some (k, ax)) ∨ ∃ n, v.action = .setSpeed ax n)) →
        m.lastCmd = (s.axis ax).commanded ∧ m.lastFb = (s.axis ax).feedback) ∧
      ((∃ i, v.quantity = .eventInput i) → asControl v.action = none → (∀ ax n, v.action ≠ .setSpeed ax n) →
        m.lastCmd = 0 ∧ m.lastFb = 0) ∧
      s1 = { s with mem := s1.mem, watches := s.watches.map (fun y => if y.cell = v.cell then m else y) } ∧
      s1.firingReads m ∧ (∀ b, ¬ inResultPart v.cell b → s1.readByte b = s.readByte b) ∧
      (¬ s.actionDue v.action → s2 = s1) ∧ (v.action = .latchOnly → s2 = s1) ∧
      (∀ k ax p, asControl v.action = some (k, ax) → (s.axis ax).list ≠ [] → p.p1 = 0 →
        (s.actionDue v.action ↔ ∃ u, s1.carryOut k (.axis ax) p = .done u) ∧
        ∀ u, s1.carryOut k (.axis ax) p = .done u → s2 = u) ∧
      (∀ g p, v.action = .openGate g → p.p1.toNat = g.val → s1.carryOut .openGate .module p = .done s2) ∧
      (∀ ax n, v.action = .setSpeed ax n → s.actionDue v.action → s2 = s1.perform (.setSpeed ax n)) ∧
      (∀ o width, v.action = .pulseOutput o width →
        s2 = { s1 with triggers := s1.triggers.set o { active := true, timer := some width } }) ∧
      (v.repeatLeft ≠ 1 → s.evaluate v.cell smp = { s2 with
        watches := s2.watches.map (fun y =>
          if y.cell = v.cell then { y with repeatLeft := y.repeatLeft - 1 } else y) }) ∧
      (v.repeatLeft = 1 → ∃ t, s.evaluate v.cell smp = t ∧
        t.watches = s2.watches.filter (fun y => y.cell != v.cell) ∧ t.chain = s2.chain ++ [v.cell] ∧
        t.causes = { s2.causes with ret := s2.causes.ret || v.notify } ∧
        t = { s2 with mem := t.mem, watches := t.watches, chain := t.chain, causes := t.causes } ∧
        t.endReads v.cell (bytes4 8 0 (32 * m.lastNA.toNat) 0) (BitVec.ofNat 32 m.fireCount) m.lastCmd m.lastFb
          (BitVec.ofNat 32 v.sinceArm) ∧
        ∀ b, ¬ mayWrite s2 v.cell b → t.readByte b = s2.readByte b) := by
  have hfire := evaluate_fires hp hv ht hc
  have hcount : (s.fired v).fireCount = v.fireCount + 1 := countMs_eq hf
  have hdue : ∀ k ax, asControl v.action = some (k, ax) → ∀ p u, p.p1 = 0 → (s.axis ax).list ≠ [] →
      (s.recorded (s.fired v)).carryOut k (.axis ax) p = .done u → s.actionDue v.action := fun k ax ha p u hp1 hl hu =>
    (carryOut_done_iff (s := s.recorded (s.fired v)) ha hl hp1).1 ⟨u, hu⟩
  refine ⟨s.fired v, s.recorded (s.fired v), s.performed (s.fired v), ?_, ?_, fun ax h => ?_, fun ⟨i, hi⟩ h1 h2 => ?_, rfl,
    recorded_reads hm hn rfl, fun b hb => recorded_other (m := s.fired v) hb rfl, performed_of_not_due (m := s.fired v),
    performed_latch (m := s.fired v),
    fun k ax p ha hl hp1 => ⟨?_, fun u hu => ?_⟩, fun g p hg hp1 => ?_, fun ax n ha hd => ?_, fun o width ha => ?_,
    fun hr => hfire.trans (fire_counts hr hq), fun hr => ⟨_, rfl, ?_⟩⟩
  · rw [← hcount]
    rfl
  · show (!s.actionApplies v.action) = false ↔ _
    rw [Bool.not_eq_false', actionApplies_iff]
  · have hax : v.recordedAxis = some ax := by
      unfold Watch.recordedAxis
      rcases h with h | h | h | h | ⟨⟨i, hi⟩, ⟨k, hk⟩ | ⟨n, hn⟩⟩
      iterate 4 rw [h]
      · rw [hi]
        cases hact : v.action <;> rw [hact] at hk <;> cases hk <;> rfl
      · rw [hi, hn]
    unfold State.fired
    rw [hax]
    exact ⟨rfl, rfl⟩
  · have hax : v.recordedAxis = none := by
      unfold Watch.recordedAxis
      rw [hi]
      cases hact : v.action <;> rw [hact] at h1
      case setSpeed ax n => exact absurd hact (h2 ax n)
      all_goals cases h1
    unfold State.fired
    rw [hax]
    exact ⟨rfl, rfl⟩
  · exact (carryOut_done_iff (s := s.recorded (s.fired v)) ha hl hp1).symm
  · exact (performed_of_due (m := s.fired v) (hdue k ax ha p u hp1 hl hu)).trans (perform_asControl ha hp1 hu)
  · have hgate : gateOfNat p.p1.toNat = g := by
      rw [hp1]
      exact Fin.ext (Nat.mod_eq_of_lt g.isLt)
    have hperf : s.performed (s.fired v) = (s.recorded (s.fired v)).openGate g := by
      rw [performed_of_due (m := s.fired v) (by rw [show (s.fired v).action = v.action from rfl, hg]; trivial),
        show (s.fired v).action = v.action from rfl, hg]
      rfl
    rw [hperf]
    unfold State.carryOut
    rw [hgate]
  · rw [performed_of_due (m := s.fired v) hd, show (s.fired v).action = v.action from rfl, ha]
  · rw [performed_of_due (m := s.fired v) (by rw [show (s.fired v).action = v.action from rfl, ha]; trivial),
      show (s.fired v).action = v.action from rfl, ha]
    rfl
  · have hend : s.evaluate v.cell smp = (s.performed (s.fired v)).unwatch { s.fired v with repeatLeft := 0 } .firedOut := by
      rw [hfire, fire_eq, if_pos hr, endWatch_eq_ended]
    rw [hend]
    exact ⟨rfl, rfl, rfl, rfl, unwatch_reads (w := { s.fired v with repeatLeft := 0 }) (memoryWf_performed hm) hn,
      fun b hb => unwatch_other hb⟩

end Sys2Proof.Machine
end

section
/-!
A watch that fires at the encoder edge or at the output pulse (O44): one evaluation among reports that find nothing
(R94, R114).
-/

open Sys2Proof Sys2Proof.Machine

namespace Sys2Proof.Machine

variable {s t x y : State} {r : Race} {ax j : AxisIx} {a b : Axis} {v m : Watch} {smp : Sample} {u : Quantity}
  {c : Conds} {e : Entry} {es : List Entry} {q : Plan} {k : Job}

/-! ### The evaluation of the only watch -/

theorem evals_single (hw : s.watches = [v]) :
    s.evals u smp = if v.quantity = u then [.evalWatch v.cell u smp] else [] := by
  unfold State.evals
  rw [hw]
  by_cases h : v.quantity = u <;> simp [h]

/-- The entry of a watch that latches the positions of an axis, its repeats counted down (R19, R119, R120). -/
def Watch.latched (v : Watch) (a : Axis) : Watch :=
  { v with
    truth := true, fireCount := v.fireCount + 1, lastCmd := a.commanded, lastFb := a.feedback, lastNA := false
    repeatLeft := v.repeatLeft - 1 }

/-- The state in which the only watch has latched the positions of an axis. -/
def State.latchedBy (s : State) (v : Watch) (a : Axis) : State :=
  { s with mem := s.recordMem (v.latched a), watches := [v.latched a] }

theorem recordMem_congr (h : t.mem = s.mem) : t.recordMem m = s.recordMem m := by
  rw [State.recordMem, State.recordMem, writeResult_mem_congr h]

/-- What a firing records does not depend on the repeats left. -/
theorem recordMem_repeatLeft {n : Nat} : s.recordMem { m with repeatLeft := n } = s.recordMem m := by
  rw [State.recordMem, State.recordMem]
  rfl

theorem fired_latched (hr : v.recordedAxis = some ax) (ha : v.action = .latchOnly) (hf : v.fireCount < 0xFFFFFFFF) :
    { s.fired v with repeatLeft := v.repeatLeft - 1 } = v.latched (s.axis ax) := by
  unfold State.fired Watch.latched
  rw [hr, ha, countMs_eq hf]
  rfl

theorem evaluate_latches (hw : x.watches = [v]) (ht : v.truth = false) (hc : v.condition.holds v.threshold smp = true)
    (hf : v.fireCount < 0xFFFFFFFF) (hl : v.repeatLeft ≠ 1) (ha : v.action = .latchOnly)
    (hr : v.recordedAxis = some ax) (hq : v.quantity ≠ .elapsed) :
    x.evaluate v.cell smp = x.latchedBy v (x.axis ax) := by
  rw [evaluate_single hw ht hc, fire_counts hl hq, performed_latch (m := x.fired v) ha]
  have hmem : x.recordMem (v.latched (x.axis ax)) = x.recordMem (x.fired v) := by
    rw [← fired_latched hr ha hf]
    exact recordMem_repeatLeft
  have hcell : (x.fired v).cell = v.cell := rfl
  have hleft : (x.fired v).repeatLeft = v.repeatLeft := rfl
  unfold State.latchedBy State.recorded
  rw [hmem, hw, ← fired_latched hr ha hf]
  simp [hcell, hleft]

/-- The watch observes a quantity of the axis whose positions it records. -/
theorem recordedAxis_of (h : u = .commandedPos ax ∨ u = .feedbackPos ax ∨ u = .speed ax ∨ u = .followingError ax)
    (hv : v.quantity = u) : v.recordedAxis = some ax ∧ v.quantity ≠ .elapsed := by
  unfold Watch.recordedAxis
  rcases h with h | h | h | h
  all_goals
    rw [hv, h]
    exact ⟨rfl, nofun⟩

/-- What it takes for the only watch to latch at a sample of a quantity of an axis. -/
structure Watch.Latches (v : Watch) (ax : AxisIx) (u : Quantity) (smp : Sample) : Prop where
  below : v.truth = false
  count : v.fireCount < 0xFFFFFFFF
  armed : v.repeatLeft ≠ 1
  latch : v.action = .latchOnly
  observes : v.quantity = u
  source : u = .commandedPos ax ∨ u = .feedbackPos ax ∨ u = .speed ax ∨ u = .followingError ax
  holds : v.condition.holds v.threshold smp = true

/-- The evaluation latches, whatever the checks have found and wherever the other reports stand. -/
theorem still_eval (hw : s.watches = [v]) (hl : v.Latches ax u smp) (h : s.still ax b x) :
    (s.latchedBy v b).still ax b (x.runJob (.evalWatch v.cell u smp)) ∧
      (x.runJob (.evalWatch v.cell u smp)).agenda = x.agenda := by
  obtain ⟨c, hx⟩ := h
  obtain ⟨hr, hq⟩ := recordedAxis_of hl.source hl.observes
  have hxw : x.watches = [v] := by
    rw [hx]
    exact hw
  have haxis : v.latched (x.axis ax) = v.latched b := by
    rw [hx, axis_setAxis_same]
    rfl
  have hmem : x.recordMem (v.latched b) = s.recordMem (v.latched b) := recordMem_congr (by rw [hx]; rfl)
  have hrun : x.runJob (.evalWatch v.cell u smp)
      = ({ s.latchedBy v b with agenda := x.agenda } : State).setAxis ax { b with seen := c } := by
    have he : x.runJob (.evalWatch v.cell u smp)
        = { x with mem := s.recordMem (v.latched b), watches := [v.latched b] } := by
      show x.evaluate v.cell smp = _
      rw [evaluate_latches hxw hl.below hl.holds hl.count hl.armed hl.latch hr hq]
      unfold State.latchedBy
      rw [haxis, hmem]
    rw [he]
    conv_lhs => rw [hx]
    rfl
  rw [hrun]
  exact ⟨⟨c, rfl⟩, rfl⟩

/-- An event whose only effective report is such an evaluation, closed. -/
theorem close_latches {idle : Job → Prop} {l : List Job} (hq : s.quiet = true) (hw : s.watches = [v])
    (hl : v.Latches ax u smp) (hidle : ∀ y : State, Idles (y.still ax b) idle)
    (hx : x = ({ s with agenda := .evalWatch v.cell u smp :: l } : State).setAxis ax b) (hn : x.noAssigns)
    (hj : ∀ k ∈ l, idle k) (hlen : l.length < 4096) :
    ∃ c, s.close r x = (s.latchedBy v b).setAxis ax { b with seen := c } := by
  obtain ⟨hag, -, hms⟩ := quiet_iff.1 hq
  obtain ⟨z, ⟨c, hz⟩, hza, hcl⟩ := close_one (s := s) (r := r) (hidle s) (hidle (s.latchedBy v b))
    (fun _ h => still_eval hw hl h) (hx ▸ still_self) hn (by rw [hx]; exact .refl _) hj hlen
    (fun z ⟨c, hz⟩ => by
      rw [hz]
      exact ⟨hms, Nat.le_succ _⟩)
  refine ⟨c, ?_⟩
  have hy : ({ s.latchedBy v b with agenda := [] } : State) = s.latchedBy v b := by
    rw [← hag]
    rfl
  rw [hcl, hz, hza, hy]

/-- What a watch that latched leaves in its cell. -/
theorem latchedBy_reads (hm : s.memoryWf = true) (hn : v.cell < 480) (ht : t.mem = (s.latchedBy v b).mem) :
    t.firingReads (v.latched b) ∧ ∀ k, ¬ inResultPart v.cell k → t.readByte k = s.readByte k :=
  ⟨recorded_reads hm hn ht, fun _ hk => recorded_other (m := v.latched b) hk ht⟩

/-! ### The encoder edge (R94) -/

/-- The axis after a counted edge (R94, R95). -/
def Axis.counts (a : Axis) (a' b' : Bool) (f err : Word) : Axis :=
  { a with encA := a', encB := b', feedback := f, followErr := err }

theorem encoder_eq {a' b' : Bool} {d : Int} {f : Word} (ha : a = s.axis ax) (hd : a.state ≠ .disabled)
    (hc : encoderCounts a.setup.encMode a.encA a.encB a' b' = [d]) (hf : f = a.feedback + BitVec.ofInt 32 d) :
    s.encoder ax a' b' = (s.addJobs (s.evals (.feedbackPos ax) (.value f.toInt) ++
      s.evals (.followingError ax) (.value (followErrorOf a.setup a.commanded f).toInt.natAbs) ++
      [.check ax .follow])).setAxis ax (a.counts a' b' f (followErrorOf a.setup a.commanded f)) := by
  have hword : a.feedback + wordOfInt d = f := hf.symm
  unfold State.encoder
  dsimp only
  rw [← ha, if_neg hd, hc, List.foldl_cons, List.foldl_nil]
  unfold State.countEdge State.moveFeedback State.recomputeError
  dsimp only
  rw [axis_updAxis_same, ← ha, hword, updAxis_updAxis, show ∀ g, s.updAxis ax g = s.setAxis ax (g (s.axis ax)) from
    fun _ => rfl, report_setAxis, updAxis_setAxis, axis_setAxis_same, report_setAxis, addJobs_addJobs, addJobs_setAxis,
    addJobs_addJobs, ← ha]
  rfl

/-- A check of the following error where it is not supervised (R98). -/
theorem still_checkFollow (hb : b.setup.followLimit = 0) (h : y.still ax b x) :
    y.still ax b (x.runJob (.check ax .follow)) ∧ (x.runJob (.check ax .follow)).agenda = x.agenda := by
  obtain ⟨c, hc⟩ := h
  have hno : ∀ c z, (State.setAxis z ax { b with seen := c }).condHolds ax .follow = false := by
    intro c z
    unfold State.condHolds
    rw [axis_setAxis_same]
    simp [hb]
  have hx : x.runJob (.check ax .follow)
      = ({ y with agenda := x.agenda } : State).setAxis ax { b with seen := c.put .follow false } := by
    show x.checkCond ax .follow = _
    conv_lhs => rw [hc]
    unfold State.checkCond
    dsimp only
    rw [hno, updAxis_setAxis]
    rfl
  rw [hx]
  exact ⟨⟨_, rfl⟩, rfl⟩

theorem idles_follow (hb : b.setup.followLimit = 0) : Idles (y.still ax b) (fun k => k = .check ax .follow) :=
  ⟨fun _ l h => still_agenda h l, fun _ _ h hk => hk ▸ still_checkFollow hb h⟩

/-- The reports of an encoder edge that the only watch observes. -/
theorem encoder_watched {a' b' : Bool} {d : Int} {f : Word} (hag : s.agenda = []) (hw : s.watches = [v])
    (ha : a = s.axis ax) (hd : a.state ≠ .disabled) (hc : encoderCounts a.setup.encMode a.encA a.encB a' b' = [d])
    (hf : f = a.feedback + BitVec.ofInt 32 d)
    (hu : (u = .feedbackPos ax ∧ smp = .value f.toInt) ∨
      (u = .followingError ax ∧ smp = .value ((followErrorOf a.setup a.commanded f).toInt.natAbs : Nat)))
    (hv : v.quantity = u) :
    s.encoder ax a' b' = ({ s with agenda := [.evalWatch v.cell u smp, .check ax .follow] } : State).setAxis ax
      (a.counts a' b' f (followErrorOf a.setup a.commanded f)) := by
  rw [encoder_eq ha hd hc hf, evals_single hw, evals_single hw]
  unfold State.addJobs
  rw [hag, hv]
  rcases hu with ⟨rfl, rfl⟩ | ⟨rfl, rfl⟩
  · rw [if_pos rfl, if_neg nofun]
    rfl
  · rw [if_neg nofun, if_pos rfl]
    rfl

theorem setAxis_noAssigns {l : List Job} (hq : s.quiet = true) (hb : b.ref = (s.axis ax).ref)
    (hl : ∀ k, Job.assign k ∉ l) : (({ s with agenda := l } : State).setAxis ax b).noAssigns := by
  obtain ⟨-, hdue, -⟩ := quiet_iff.1 hq
  refine ⟨hl, fun k => ?_⟩
  by_cases hj : k = ax
  · rw [hj, axis_setAxis_same, hb]
    exact hdue ax
  · rw [axis_setAxis_other _ _ hj]
    exact hdue k

/-! ### The output pulse (R92, R114) -/

/-- Within the plan of a move without FLY the sequencer and the checks find nothing to do. -/
theorem idles_onward (h : s.RunsMove ax a e es q b) (hq : q.moved + 1 < q.length) (hf : e.opts.fly = false) :
    Idles (y.still ax b) (fun k => k = .progress ax ∨ ∃ d, k = .check ax d) := by
  refine ⟨fun _ l h => still_agenda h l, fun x k hx hk => ?_⟩
  rcases hk with rfl | ⟨d, rfl⟩
  · obtain ⟨c, hc⟩ := hx
    have hrun : x.runJob (.progress ax) = x := by
      show x.progress ax = x
      rw [hc]
      exact progress_onward h hq (.inl hf)
    rw [hrun]
    exact ⟨⟨c, hc⟩, rfl⟩
  · exact still_check h.stays hx

/-- The reports of an output pulse that the only watch observes. -/
theorem pulse_watched (hag : s.agenda = []) (hw : s.watches = [v]) (hb : b = (s.axis ax).pulsed)
    (hu : (u = .commandedPos ax ∧ smp = .value (wordOfInt (s.axis ax).nextCommanded).toInt) ∨
      (u = .speed ax ∧ b.prof.speedSq ≠ (s.axis ax).prof.speedSq ∧ smp = .speedSq b.prof.speedSq))
    (hv : v.quantity = u) :
    s.pulse ax = ({ s with agenda := [.evalWatch v.cell u smp, .progress ax, .check ax .limit, .check ax .ready,
      .check ax .alarm, .check ax .follow] } : State).setAxis ax b := by
  rw [pulse_eq]
  unfold State.pulseJobs State.addJobs
  rw [evals_single hw, evals_single hw, evals_single hw, hag, hv, ← hb]
  rcases hu with ⟨rfl, rfl⟩ | ⟨rfl, hne, rfl⟩
  · simp only [if_true, reduceCtorEq, if_false, ite_self]
    rfl
  · simp only [if_true, reduceCtorEq, if_false, hne]
    rfl

end Sys2Proof.Machine
end

section
/-!
A watch that fires (O44) put together.
-/

open Sys2Proof Sys2Proof.Machine

namespace Sys2Proof.Machine

variable {s t : State} {r : Race} {ax j : AxisIx} {a b : Axis} {v : Watch} {smp : Sample} {u : Quantity}

/-- What the state says in which the only watch has latched. -/
theorem latchedBy_spec {c : Conds} (hm : s.memoryWf = true) (hn : v.cell < 480)
    (ht : t = (s.latchedBy v b).setAxis ax { b with seen := c }) :
    t.watches = [v.latched b] ∧ t.firingReads (v.latched b) ∧
      (∀ k, ¬ inResultPart v.cell k → t.readByte k = s.readByte k) ∧ t.axis ax = { b with seen := c } ∧
      s.otherAxes t ax ∧ t = { s with mem := t.mem, watches := t.watches, axes := t.axes } := by
  have hmem : t.mem = (s.latchedBy v b).mem := by
    rw [ht]
    rfl
  obtain ⟨h1, h2⟩ := latchedBy_reads hm hn hmem
  refine ⟨by rw [ht]; rfl, h1, h2, by rw [ht, axis_setAxis_same], fun j hj => ?_, by rw [ht]; rfl⟩
  rw [ht, axis_setAxis_other _ _ hj]
  rfl

/-- An encoder edge on whose position or following error the only watch latches (R94, R114). -/
theorem exec_encoder_latches {a' b' : Bool} {d : Int} {f err : Word} (hq : s.quiet = true) (hw : s.watches = [v])
    (ha : a = s.axis ax) (hd : a.state ≠ .disabled) (hlim : a.setup.followLimit = 0)
    (hc : encoderCounts a.setup.encMode a.encA a.encB a' b' = [d]) (hf : f = a.feedback + BitVec.ofInt 32 d)
    (herr : err = followErrorOf a.setup a.commanded f)
    (hu : (u = .feedbackPos ax ∧ smp = .value f.toInt) ∨ (u = .followingError ax ∧ smp = .value (err.toInt.natAbs : Nat)))
    (hl : v.Latches ax u smp) :
    ∃ c, exec (.encoderEdge ax a' b' r) s
      = .next ((s.latchedBy v (a.counts a' b' f err)).setAxis ax { a.counts a' b' f err with seen := c }) := by
  subst herr
  have hx := encoder_watched (quiet_iff.1 hq).1 hw ha hd hc hf hu hl.observes
  generalize followErrorOf a.setup a.commanded f = err at hx ⊢
  obtain ⟨c, hcl⟩ := close_latches (r := r) (b := a.counts a' b' f err) hq hw hl
    (fun _ => idles_follow hlim) hx
    (hx ▸ setAxis_noAssigns hq (by rw [← ha]; rfl) (by simp)) (by simp) (by simp)
  exact ⟨c, congrArg Host.Outcome.next hcl⟩

/-- An output pulse within the plan of a move on whose position or speed the only watch latches (R92, R114). -/
theorem exec_pulse_latches {e : Entry} {es : List Entry} {q : Plan} (h : s.RunsMove ax a e es q b)
    (hq : q.moved + 1 < q.length) (hf : e.opts.fly = false) (hw : s.watches = [v])
    (hu : (u = .commandedPos ax ∧ smp = .value (a.commanded.toInt + a.prof.dir.sign)) ∨
      (u = .speed ax ∧ b.prof.speedSq ≠ a.prof.speedSq ∧ smp = .speedSq b.prof.speedSq))
    (hl : v.Latches ax u smp) :
    ∃ c, exec (.outputPulse ax r) s = .next ((s.latchedBy v b).setAxis ax { b with seen := c }) := by
  have hcmd : (wordOfInt (s.axis ax).nextCommanded).toInt = a.commanded.toInt + a.prof.dir.sign := by
    rw [← h.axis]
    exact toInt_wordOfInt h.low h.high
  have hx := pulse_watched h.agenda hw h.pulsed (by rw [hcmd, ← h.axis]; exact hu) hl.observes
  obtain ⟨c, hcl⟩ := close_latches (r := r) h.quiet hw hl (fun _ => idles_onward h hq hf) hx
    (pulse_noAssigns h.agenda (quiet_iff.1 h.quiet).2.1) (by simp) (by simp)
  exact ⟨c, (exec_pulse h.canPulse).trans (congrArg Host.Outcome.next hcl)⟩

/-- Settles O44: the firing, then the encoder edge and the output pulse that set one off. -/
theorem watchFires : Obligations.WatchFires := by
  refine ⟨fun s v x hm hp hv hn ht hc hf hq => watch_fires hm hp hv hn ht hc hf hq, ?_, ?_⟩
  · intro s ax a' b' r v x d f hm hp hq hw hn ht hf hr ha hx hd hlim hc hfb hcond
    obtain ⟨err, herr⟩ : ∃ err, err = followErrorOf x.setup x.commanded f := ⟨_, rfl⟩
    rw [← herr] at hcond
    obtain ⟨u, smp, hu, hl⟩ : ∃ u smp, ((u = .feedbackPos ax ∧ smp = .value f.toInt) ∨
        (u = .followingError ax ∧ smp = .value (err.toInt.natAbs : Nat))) ∧ v.Latches ax u smp := by
      rcases hcond with ⟨h1, h2⟩ | ⟨h1, h2⟩
      · exact ⟨_, _, .inl ⟨rfl, rfl⟩, ht, hf, hr, ha, h1, .inr (.inl rfl), h2⟩
      · exact ⟨_, _, .inr ⟨rfl, rfl⟩, ht, hf, hr, ha, h1, .inr (.inr (.inr rfl)), h2⟩
    obtain ⟨c, hex⟩ := exec_encoder_latches (r := r) hq hw hx hd hlim hc hfb herr hu hl
    obtain ⟨h1, h2, h3, h4, h5, h6⟩ := latchedBy_spec hm hn rfl
    exact ⟨_, _, hex, h1, rfl, h2, h3, by rw [h4]; rfl, h5, h6⟩
  · intro s ax r v a e es q here sq hm hp hq hw hn ht hf hr ha hx hrun hmv hu hl hk hfly hph hst hnr hpl hlen hhere h1 h2
      hsq hcond
    obtain ⟨b, hb⟩ : ∃ b, b = (s.axis ax).pulsed := ⟨_, rfl⟩
    have h : s.RunsMove ax a e es q b := ⟨hq, hx, hrun, hmv, hu, hl, hk, hph, hst, hnr, hpl, hhere ▸ h1, hhere ▸ h2, hb⟩
    have hspeed := h.speed hsq
    obtain ⟨u, smp, hu, hlatch⟩ : ∃ u smp, ((u = .commandedPos ax ∧ smp = .value (a.commanded.toInt + a.prof.dir.sign)) ∨
        (u = .speed ax ∧ b.prof.speedSq ≠ a.prof.speedSq ∧ smp = .speedSq b.prof.speedSq)) ∧ v.Latches ax u smp := by
      rw [hspeed, ← hhere]
      rcases hcond with ⟨h1, h2⟩ | ⟨h1, h2, h3⟩
      · exact ⟨_, _, .inl ⟨rfl, rfl⟩, ht, hf, hr, ha, h1, .inl rfl, h2⟩
      · exact ⟨_, _, .inr ⟨rfl, h2, rfl⟩, ht, hf, hr, ha, h1, .inr (.inr (.inl rfl)), h3⟩
    obtain ⟨c, hex⟩ := exec_pulse_latches (r := r) h hlen hfly hw hu hlatch
    obtain ⟨h1, h2, h3, h4, h5, h6⟩ := latchedBy_spec hm hn rfl
    have hword : b.commanded = BitVec.ofInt 32 here := hhere ▸ h.commandedWord
    refine ⟨_, v.latched b, hex, h1, ?_, h2, h3, ?_, ?_, h5, h6⟩
    · unfold Watch.latched
      rw [hword, h.onward.feedback]
    · rw [h4]
      exact h.here.trans hhere.symm
    · rw [h4]
      exact hspeed

end Sys2Proof.Machine
end

section
/-!
The admission checks in their order (R31 to R35): what each check finds, the first failure deciding, and what the
verdict of a visit says of the cell.
-/

open Sys2Proof Sys2Proof.Machine

namespace Sys2Proof.Machine

variable {s t : State} {m : Quad Bool} {c : CellWords} {k : Kind} {sc : Scope} {r : RefusalCode}

/-! ### The checks one by one -/

/-- Check 3 passes in RUNNING, in SILENT for control orders, and for CLEAR_FAULT at rest, in STARTING and in STOPPING
(R32). -/
theorem moduleCheck_passes {ms : ModState} (h : ms = .running ∨ (ms = .silent ∧ ∃ q, k = .control q) ∨
    ((ms = .stopped ∨ ms = .starting ∨ ms = .stopping) ∧ k = .control .clearFault)) : moduleCheck ms k = none := by
  rcases h with rfl | ⟨rfl, q, rfl⟩ | ⟨rfl | rfl | rfl, rfl⟩ <;> rfl

/-- SILENT admits no motion and no watch (R32). -/
theorem moduleCheck_silent (h : ∀ q, k ≠ .control q) : moduleCheck .silent k = some .moduleSilent := by
  cases k with
  | control q => exact absurd rfl (h q)
  | motion | armWatch => rfl

/-- Where no motion is permitted and the module is not HALTED, only CLEAR_FAULT passes (R32). -/
theorem moduleCheck_notRunning {ms : ModState} (h : ms = .stopped ∨ ms = .starting ∨ ms = .stopping)
    (hk : k ≠ .control .clearFault) : moduleCheck ms k = some .moduleNotRunning := by
  cases k with
  | control q =>
      cases q with
      | clearFault => exact absurd rfl hk
      | _ => rcases h with rfl | rfl | rfl <;> rfl
  | motion | armWatch => rcases h with rfl | rfl | rfl <;> rfl

theorem axisCheck_disabled {ax : AxisIx} (h : (s.axis ax).state = .disabled) :
    s.axisCheck m k (.axis ax) = some .axisDisabled := if_pos h

theorem axisCheck_faulted {q : MotionKind} {ax : AxisIx} (h : (s.axis ax).state = .faulted) :
    s.axisCheck m (.motion q) (.axis ax) = some .axisFaulted := by
  simp [State.axisCheck, h]

theorem axisCheck_marked {q : MotionKind} {ax : AxisIx} (h1 : (s.axis ax).state ≠ .disabled)
    (h2 : (s.axis ax).state ≠ .faulted) (h3 : m.get ax = true) :
    s.axisCheck m (.motion q) (.axis ax) = some .priorRefused := by
  simp [State.axisCheck, h1, h2, h3]

/-- Checks 4 to 6 pass on an axis that is not DISABLED and, for a motion order, neither FAULTED nor marked (R33, R34). -/
theorem axisCheck_passes (h1 : ∀ ax, sc = .axis ax → (s.axis ax).state ≠ .disabled)
    (h2 : ∀ q ax, k = .motion q → sc = .axis ax → (s.axis ax).state ≠ .faulted ∧ m.get ax = false) :
    s.axisCheck m k sc = none := by
  cases sc with
  | module => rfl
  | axis ax =>
      cases k with
      | motion q => simp [State.axisCheck, h1 ax rfl, h2 q ax rfl rfl]
      | armWatch | control => simp [State.axisCheck, h1 ax rfl]

/-! ### The first failure decides (R31) -/

theorem admissionFails_module (h : moduleCheck s.modState k = some r) : s.admissionFails m k sc c = some (r, 0) := by
  simp only [State.admissionFails, h]

theorem admissionFails_axis (h : moduleCheck s.modState k = none) (h1 : s.axisCheck m k sc = some r) :
    s.admissionFails m k sc c = some (r, 0) := by
  simp only [State.admissionFails, h, h1]

theorem admissionFails_param {d : Nat} (h : moduleCheck s.modState k = none) (h1 : s.axisCheck m k sc = none)
    (h2 : s.paramCheck k sc c = some d) : s.admissionFails m k sc c = some (.badParam, d) := by
  simp only [State.admissionFails, h, h1, h2]

/-- Checks 3 to 7 passed, check 8 decides. -/
theorem admissionFails_room (h : moduleCheck s.modState k = none) (h1 : s.axisCheck m k sc = none)
    (h2 : s.paramCheck k sc c = none) :
    s.admissionFails m k sc c = (s.roomCheck k sc).map (fun r => (r, 0)) := by
  simp only [State.admissionFails, h, h1, h2]

/-- A cell that passes all checks finds room. -/
theorem roomCheck_of_passes (h : s.admissionFails m k sc c = none) : s.roomCheck k sc = none := by
  unfold State.admissionFails at h
  split at h
  · cases h
  · split at h
    · cases h
    · split at h
      · cases h
      · exact Option.map_eq_none_iff.1 h

/-! ### The verdict -/

section
variable (hk : kindOfCode c.kindCode = some k) (hs : scopeOfCode c.scopeCode = some sc) (hp : k.permits sc = true)
include hk hs hp

/-- A failed check is the verdict (R31). -/
theorem verdict_fails {d : Nat} (h : s.admissionFails m k sc c = some (r, d)) :
    s.verdict m c = .refused r d (markOf k sc) := by
  simp [State.verdict, hk, hs, hp, h]

theorem verdict_motion {q : MotionKind} {ax : AxisIx} (hq : k = .motion q) (ha : sc = .axis ax)
    (h : s.admissionFails m k sc c = none) : s.verdict m c = .motion q ax := by
  subst hq ha
  simp [State.verdict, hk, hs, hp, h]

theorem verdict_watch (hq : k = .armWatch) (h : s.admissionFails m k sc c = none) : s.verdict m c = .watch := by
  subst hq
  simp [State.verdict, hk, hs, hp, h]

theorem verdict_done {q : ControlKind} (hq : k = .control q) (h : s.admissionFails m k sc c = none)
    (hd : s.carryOut q sc c.params = .done t) : s.verdict m c = .done sc t := by
  subst hq
  simp [State.verdict, hk, hs, hp, h, hd]

theorem verdict_notDone {q : ControlKind} {d : Nat} (hq : k = .control q) (h : s.admissionFails m k sc c = none)
    (hd : s.carryOut q sc c.params = .refused r d) : s.verdict m c = .refused r d none := by
  subst hq
  simp [State.verdict, hk, hs, hp, h, hd]

end

/-- What a verdict says: a refusal, a motion order or a watch that finds room, or a control order carried out. -/
theorem verdict_cases (s : State) (m : Quad Bool) (c : CellWords) :
    (∃ r d a, s.verdict m c = .refused r d a) ∨
    (∃ q ax, s.verdict m c = .motion q ax ∧ s.roomCheck (.motion q) (.axis ax) = none) ∨
    (∃ sc, s.verdict m c = .watch ∧ s.roomCheck .armWatch sc = none) ∨
    (∃ q sc t, s.verdict m c = .done sc t ∧ s.carryOut q sc c.params = .done t) := by
  cases hk : kindOfCode c.kindCode with
  | none => exact .inl ⟨_, _, _, verdict_badKind hk⟩
  | some k =>
      by_cases hp : ∃ sc, scopeOfCode c.scopeCode = some sc ∧ k.permits sc = true
      · obtain ⟨sc, hs, hp⟩ := hp
        cases hf : s.admissionFails m k sc c with
        | some x => exact .inl ⟨_, _, _, verdict_fails hk hs hp hf⟩
        | none =>
            cases k with
            | motion q =>
                cases sc with
                | axis ax => exact .inr (.inl ⟨q, ax, verdict_motion hk hs hp rfl rfl hf, roomCheck_of_passes hf⟩)
                | module => cases hp
            | armWatch => exact .inr (.inr (.inl ⟨sc, verdict_watch hk hs hp rfl hf, roomCheck_of_passes hf⟩))
            | control q =>
                cases hd : s.carryOut q sc c.params with
                | done t => exact .inr (.inr (.inr ⟨q, sc, t, verdict_done hk hs hp rfl hf hd, hd⟩))
                | refused r d => exact .inl ⟨_, _, _, verdict_notDone hk hs hp rfl hf hd⟩
      · refine .inl ⟨_, _, _, verdict_badScope hk fun sc hs => ?_⟩
        exact Bool.eq_false_iff.2 fun h => hp ⟨sc, hs, h⟩

/-- Settles O18: check by check, each behind those before it. -/
theorem admissionOrder : Obligations.AdmissionOrder := by
  intro s m c k sc hk hs hp
  have fails : ∀ {r d}, s.admissionFails m k sc c = some (r, d) → s.verdict m c = .refused r d (markOf k sc) :=
    verdict_fails hk hs hp
  refine ⟨⟨fun h3 hq => ?_, fun h3 hq => ?_, fun h3 => ?_⟩, fun h3 => ?_⟩
  · exact fails (admissionFails_module (h3 ▸ moduleCheck_silent hq))
  · exact fails (admissionFails_module (moduleCheck_notRunning h3 hq))
  · exact fails (admissionFails_module (by rw [h3]; rfl))
  have c3 := moduleCheck_passes h3
  refine ⟨fun ax ha h4 => ?_, fun h4 => ⟨fun q ax hq ha h5 => ?_, fun q ax hq ha h5 h6 => ?_, fun h6 => ?_⟩⟩
  · exact fails (admissionFails_axis c3 (ha ▸ axisCheck_disabled h4))
  · subst hq ha
    exact fails (admissionFails_axis c3 (axisCheck_faulted h5))
  · subst hq ha
    exact fails (admissionFails_axis c3 (axisCheck_marked (h4 ax rfl) h5 h6))
  have c6 := axisCheck_passes h4 h6
  refine ⟨fun d h7 => fails (admissionFails_param c3 c6 h7), fun c7 => ?_⟩
  have c8 := admissionFails_room c3 c6 c7
  refine ⟨fun q ax hq ha => ?_, fun hq => ?_, fun q hq => ?_⟩
  · subst hq ha
    by_cases h : 16 ≤ (s.axis ax).list.length
    · rw [if_pos h, fails (c8.trans (congrArg (Option.map _) (if_pos h)))]
      rfl
    · rw [if_neg h, verdict_motion hk hs hp rfl rfl (c8.trans (congrArg (Option.map _) (if_neg h)))]
  · subst hq
    by_cases h : 16 ≤ s.watches.length
    · rw [if_pos h, fails (c8.trans (congrArg (Option.map _) (if_pos h)))]
      rfl
    · rw [if_neg h, verdict_watch hk hs hp rfl (c8.trans (congrArg (Option.map _) (if_neg h)))]
  · subst hq
    cases hd : s.carryOut q sc c.params with
    | done t => exact verdict_done hk hs hp rfl c8 hd
    | refused r d => exact verdict_notDone hk hs hp rfl c8 hd

end Sys2Proof.Machine
end

section
/-!
The walk (R25 to R27): how it begins, its three ends, and the visit that refuses a cell (R36).
-/

open Sys2Proof Sys2Proof.Machine

namespace Sys2Proof.Machine

variable {s t : State} {w : Walk} {n a d : Nat} {b : Bool} {c : RefusalCode} {mark : Option AxisIx} {r : Race}
  {reason : EndReason}

/-! ### Beginnings and ends -/

theorem beginWalk_of_head {h : BitVec 16} {rest : List (BitVec 16)} (hw : s.walk = none) (hq : s.postQueue = h :: rest) :
    s.beginWalk = { s with postQueue := rest, walk := some { head := h.toNat, at_ := h.toNat } } := by
  simp only [State.beginWalk, hw, hq]

/-- No walk begins while one is in progress, or from an empty queue (R25). -/
theorem beginWalk_eq_self (h : s.walk ≠ none ∨ s.postQueue = []) : s.beginWalk = s := by
  unfold State.beginWalk
  split
  · rename_i hw hq
    rcases h with h | h
    · exact absurd hw h
    · rw [h] at hq; cases hq
  all_goals rfl

/-- FFFF Hex ends a walk, then an index that names no cell, then a cell that is held or not OFFERED (R26). -/
theorem endsAt_of (h : (n = 0xFFFF ∧ reason = .endOfChain) ∨ (480 ≤ n ∧ n ≠ 0xFFFF ∧ reason = .badIndex) ∨
    (n < 480 ∧ (n ∈ s.held ∨ (s.cellWords n).header.extractLsb' 0 8 ≠ 1) ∧ reason = .notOffered)) :
    s.endsAt n = some reason := by
  unfold State.endsAt
  rcases h with ⟨rfl, rfl⟩ | ⟨h1, h2, rfl⟩ | ⟨h1, h2, rfl⟩
  · rw [if_pos (by rfl)]
  · rw [if_neg (by exact h2), if_pos (by exact h1)]
  · rw [if_neg (by unfold noIndex; omega), if_neg (by unfold Config.cellCount; omega), if_pos]
    simpa [State.isHeld, CellWords.stateByte, offeredByte] using h2

theorem visit_of_endsAt (h : s.endsAt w.at_ = some reason) :
    s.visit w = { s.endWalk w reason with visitRead := [] } := by
  unfold State.visit
  rw [h]

/-- A visit that leaves agenda, module state and axes of a settled state, and links at most one cell, is all of its
command. -/
theorem exec_cellVisit_settled (hw : s.walk = some w) (hs : s.settled = true) (h1 : (s.visit w).agenda = s.agenda)
    (h2 : (s.visit w).modState = s.modState) (h3 : (s.visit w).axes = s.axes)
    (h4 : (s.visit w).chain.length ≤ s.chain.length + 1) : exec (.cellVisit r) s = .next (s.visit w) := by
  show Host.Outcome.next (match s.walk with
    | some w => s.close r (s.visit w)
    | none => s) = _
  rw [hw]
  exact congrArg Host.Outcome.next (close_of_settled (settled_of_same h1 h2 h3 hs) h4)

/-- Settles O16: the oldest head begins a walk; at an end nothing but the record and the walk changes. -/
theorem walkBeginsAndEnds : Obligations.WalkBeginsAndEnds := by
  refine ⟨fun s => ⟨fun h rest hw hq => ?_, fun h => ?_⟩, fun s w r reason hw hs h => ?_⟩
  · exact congrArg Host.Outcome.next (beginWalk_of_head hw hq)
  · exact congrArg Host.Outcome.next (beginWalk_eq_self h)
  · have hv := visit_of_endsAt (endsAt_of h)
    rw [exec_cellVisit_settled hw hs (by rw [hv]; rfl) (by rw [hv]; rfl) (by rw [hv]; rfl)
      (by rw [hv]; exact Nat.le_succ _), hv]
    rfl

/-! ### Bytes of a cell linked -/

/-- Of its own cell a link writes the return link alone (R151). -/
theorem readByte_linkCell_inside (h1 : 0x800 + 64 * n ≤ a ∧ a < 0x800 + 64 * n + 64)
    (h2 : ¬ (0x800 + 64 * n + 6 ≤ a ∧ a < 0x800 + 64 * n + 8)) : (s.linkCell n b).readByte a = s.readByte a := by
  refine readByte_linkCell_other h2 ?_
  rintro ⟨tail, -, ht⟩
  omega

theorem readWord_linkCell_inside (h1 : 0x800 + 64 * n + 8 ≤ a) (h2 : a + 4 ≤ 0x800 + 64 * n + 64) :
    (s.linkCell n b).readWord a = s.readWord a :=
  readWord_congr fun k hk => readByte_linkCell_inside (by omega) (by omega)

/-- A return link written is read back. -/
theorem returnLink_writeReturnLink {l : Nat} (h : s.memoryWf = true) (hn : n < 480) (hl : l < 0x10000) :
    (s.writeReturnLink n l).returnLink n = l := by
  have hb : cellBase n + 6 + 1 < Config.memSize := by unfold cellBase Config.memSize; omega
  have hlow := readByte_writeHalf_low (w := BitVec.ofNat 16 l) h hb
  have hhigh := readByte_writeHalf_high (w := BitVec.ofNat 16 l) h hb
  unfold State.returnLink State.writeReturnLink
  rw [hlow, show cellBase n + 7 = cellBase n + 6 + 1 from rfl, hhigh]
  have hw : (BitVec.ofNat 16 l).extractLsb' 8 8 ++ (BitVec.ofNat 16 l).extractLsb' 0 8 = BitVec.ofNat 16 l :=
    (BitVec.extractLsb'_append_extractLsb'_eq_extractLsb' rfl).trans BitVec.extractLsb'_eq_self
  rw [hw, BitVec.toNat_ofNat, Nat.mod_eq_of_lt hl]

theorem returnLink_of_mem (h : t.mem = s.mem) : t.returnLink n = s.returnLink n := by
  simp only [State.returnLink, readByte_of_mem h]

/-- The tail of the chain links to the cell put behind it (R151). -/
theorem returnLink_linkCell {tail : Nat} (h : s.memoryWf = true) (ht : s.chain.getLast? = some tail) (h1 : tail < 480)
    (hn : n < 0x10000) : (s.linkCell n b).returnLink tail = n := by
  have hl : (s.writeReturnLink n noIndex).linkTail n = (s.writeReturnLink n noIndex).writeReturnLink tail n := by
    unfold State.linkTail
    rw [show (s.writeReturnLink n noIndex).chain = s.chain from rfl, ht]
  have hb : (s.linkCell n b).returnLink tail = ((s.writeReturnLink n noIndex).linkTail n).returnLink tail := by
    simp only [State.returnLink, readByte_linkCell]
  rw [hb, hl]
  exact returnLink_writeReturnLink (memoryWf_writeReturnLink h) h1 hn

/-! ### A cell refused (R36) -/

/-- A refused cell before it is linked. -/
def State.refusedAt (s : State) (n : Nat) (c : RefusalCode) (d : Nat) : State :=
  ((s.writeResult n { code := c.code, reason := d }).writeCellState n refusedByte).setHeld n

theorem refuseCell_eq_link : s.refuseCell n c d b = (s.refusedAt n c d).linkCell n b := rfl

theorem refusedAt_chain : (s.refusedAt n c d).chain = s.chain := by
  unfold State.refusedAt
  rw [writeResult_eq]
  rfl

theorem readByte_refusedAt : (s.refusedAt n c d).readByte a
    = ((s.writeResult n { code := c.code, reason := d }).writeCellState n refusedByte).readByte a := by
  unfold State.refusedAt
  exact readByte_setHeld

theorem memoryWf_refusedAt (h : s.memoryWf = true) : (s.refusedAt n c d).memoryWf = true := by
  have hw : ((s.writeResult n { code := c.code, reason := d }).writeCellState n refusedByte).memoryWf = true :=
    memoryWf_writeByte (memoryWf_writeResult h)
  unfold State.memoryWf at hw ⊢
  exact hw

/-- A cell that is refused reads REFUSED, with the code and the detail in its result part (R10, R36). -/
theorem refuseCell_reads (h : s.memoryWf = true) (hn : n < 480) (ht : ∀ tail, s.chain.getLast? = some tail → tail ≠ n) :
    (s.refuseCell n c d b).readByte (0x800 + 64 * n) = 7 ∧
    (s.refuseCell n c d b).resultReads n (bytes4 c.code d 0 0) 0 0 0 0 := by
  obtain ⟨h1, h2, h3, h4, h5⟩ := writeResult_reads (r := { code := c.code, reason := d }) h hn
  have hword : ∀ o, 0x2C ≤ o → o + 4 ≤ 64 → (s.refuseCell n c d b).readWord (0x800 + 64 * n + o)
      = (s.writeResult n { code := c.code, reason := d }).readWord (0x800 + 64 * n + o) := by
    intro o ho1 ho2
    rw [refuseCell_eq_link, readWord_linkCell_inside (by omega) (by omega)]
    exact readWord_congr fun k _ => readByte_refusedAt.trans (readByte_writeCellState_other (by omega))
  refine ⟨?_, ?_, ?_, ?_, ?_, ?_, ?_⟩
  · rw [refuseCell_eq_link, readByte_linkCell_inside (by omega) (by omega)]
    exact readByte_refusedAt.trans (writeCellState_reads (memoryWf_writeResult h) hn)
  · rw [hword _ (by omega) (by omega), h1]; rfl
  · rw [hword _ (by omega) (by omega), h2]; rfl
  · rw [hword _ (by omega) (by omega), h3]
  · rw [hword _ (by omega) (by omega), h4]
  · rw [hword _ (by omega) (by omega), h5]; rfl
  · rw [refuseCell_eq_link]
    exact linkCell_link (memoryWf_refusedAt h) hn (by rwa [refusedAt_chain])

/-- What the visit of a refused cell makes of the state (R34, R36). -/
def State.refuseVisit (s : State) (w : Walk) (c : RefusalCode) (d : Nat) (mark : Option AxisIx) : State :=
  { s.refuseCell w.at_ c d (s.cellWords w.at_).options.notify with
    walk := some (w.countRefused (s.cellWords w.at_).postLink mark), visitRead := [] }

theorem refuseVisit_mem : (s.refuseVisit w c d mark).mem
    = (s.refuseCell w.at_ c d (s.cellWords w.at_).options.notify).mem := rfl

theorem refuseVisit_eq : s.refuseVisit w c d mark = { s with
    mem := (s.refuseVisit w c d mark).mem, held := insertNat w.at_ s.held, chain := s.chain ++ [w.at_]
    causes := { s.causes with ret := s.causes.ret || (s.cellWords w.at_).options.notify }
    walk := some (w.countRefused (s.cellWords w.at_).postLink mark), visitRead := [] } := by
  unfold State.refuseVisit
  rw [refuseCell_eq]

theorem visit_refused (ho : s.offeredAt w) (hd : s.decides w = .refused c d mark) :
    s.visit w = s.refuseVisit w c d mark := by
  rw [visit_of_decides ho hd]
  rfl

/-- Settles O20: the cell is written and linked, the walk counts it and goes on, and nothing follows. -/
theorem visitRefusesCell : Obligations.VisitRefusesCell := by
  intro s w r code detail mark hm hp hs ho hd
  obtain ⟨hw, hn, hh, -⟩ := id ho
  have ht := fun tail => tail_ne_offered (tail := tail) hp hh
  have hv := visit_refused ho hd
  have he := refuseVisit_eq (s := s) (w := w) (c := code) (d := detail) (mark := mark)
  obtain ⟨h7, hr⟩ := refuseCell_reads (c := code) (d := detail) (b := (s.cellWords w.at_).options.notify) hm hn ht
  have hmem := refuseVisit_mem (s := s) (w := w) (c := code) (d := detail) (mark := mark)
  have hx : exec (.cellVisit r) s = .next (s.refuseVisit w code detail mark) := by
    rw [← hv]
    refine exec_cellVisit_settled hw hs ?_ ?_ ?_ ?_ <;> rw [hv, he]
    exact (List.length_append).le
  refine ⟨_, hx, (readByte_of_mem hmem _).trans h7, resultReads_of_mem hmem hr, fun a ha => ?_, fun tail hl h1 => ?_,
    holdsToo_insertNat (by rw [he]), by rw [he], by rw [he], ?_, ?_⟩
  · exact (readByte_of_mem hmem a).trans (readByte_refuseCell_other ha)
  · rw [returnLink_of_mem hmem, refuseCell_eq_link]
    exact returnLink_linkCell (memoryWf_refusedAt hm) (by rw [refusedAt_chain]; exact hl) h1 (by omega)
  · rw [he]; cases mark <;> rfl
  · rw [he]

end Sys2Proof.Machine
end

section
/-!
Resets (R30, R175, R177, R186), the values stated for reset, and POST (R22, R23).
-/

open Sys2Proof Sys2Proof.Machine

namespace Sys2Proof.Machine

variable {s : State} {n a count : Nat} {r : Result}

/-! ### A visit that a RESET cuts short (R30) -/

/-- Words written leave the bytes that are in none of them. -/
theorem readByte_writeWords_other : ∀ {ws : List (Nat × Word)} {s : State}, (∀ p ∈ ws, a < p.1 ∨ p.1 + 4 ≤ a) →
    (s.writeWords ws).readByte a = s.readByte a
  | [], _, _ => rfl
  | p :: ws, s, h => by
      have hp : (s.writeWord p.1 p.2).readByte a = s.readByte a :=
        readByte_writeWord_other (h p (List.mem_cons_self ..))
      exact (readByte_writeWords_other (s := s.writeWord p.1 p.2) fun q hq => h q (List.mem_cons_of_mem _ hq)).trans hp

/-- The words of a result part lie in it (R10). -/
theorem not_inWord_of_mem_resultWords {p : Nat × Word} (h : ¬ inResultPart n a) (hp : p ∈ resultWords n r) :
    a < p.1 ∨ p.1 + 4 ≤ a := by
  unfold inResultPart at h
  simp only [resultWords, List.mem_cons, List.not_mem_nil, or_false] at hp
  unfold cellBase at hp
  rcases hp with rfl | rfl | rfl | rfl | rfl <;> dsimp only <;> omega

/-- The first items of a result part, as three writes. -/
theorem writePartial_eq : s.writePartial n r count = { s with mem := (s.writePartial n r count).mem } := by
  unfold State.writePartial
  refine memOnly_trans (t := if 2 ≤ count then
    (s.writeWords ((resultWords n r).take 1 |>.take count)).writeReturnLink n noIndex
    else s.writeWords ((resultWords n r).take 1 |>.take count)) ?_ (writeWords_eq _)
  split
  · exact memOnly_trans (writeWords_eq _) (writeReturnLink_eq _)
  · exact writeWords_eq _

theorem readByte_writePartial_other (h : ¬ inResultPart n a) :
    (s.writePartial n r count).readByte a = s.readByte a := by
  have words : ∀ {ws : List (Nat × Word)} {u : State}, (∀ p ∈ ws, p ∈ resultWords n r) →
      (u.writeWords ws).readByte a = u.readByte a :=
    fun hw => readByte_writeWords_other fun p hp => not_inWord_of_mem_resultWords h (hw p hp)
  unfold State.writePartial
  rw [words fun p hp => List.mem_of_mem_drop (List.mem_of_mem_take hp)]
  have first : (s.writeWords ((resultWords n r).take 1 |>.take count)).readByte a = s.readByte a :=
    words fun p hp => List.mem_of_mem_take (List.mem_of_mem_take hp)
  split
  · exact (readByte_writeReturnLink_other fun k => h (.inl k)).trans first
  · exact first

theorem abandonVisit_eq : s.abandonVisit count = { s with mem := (s.abandonVisit count).mem } := by
  unfold State.abandonVisit
  split
  · rfl
  · split
    · rfl
    · exact writePartial_eq

/-- Only the result part of the cell that the walk may read is written (R30). -/
theorem readByte_abandonVisit_other (h : ∀ w, s.offeredAt w → ¬ inResultPart w.at_ a) :
    (s.abandonVisit count).readByte a = s.readByte a := by
  unfold State.abandonVisit
  split
  · rfl
  · rename_i w hw
    split
    · rfl
    · rename_i he
      exact readByte_writePartial_other (h w (offeredAt_of_endsAt hw he))

/-! ### Resets -/

theorem resetWith_eq (x : Extent) (rb : Readback) : s.resetWith x rb = s.resetTo x (x.clear s.mem) rb := rfl

/-- Of what a visit cut short leaves, a reset keeps memory alone. -/
theorem takeReset_eq (arg : Byte) : s.takeReset arg count = s.resetTo .images (zeroImages (s.abandonVisit count).mem)
    { code := 3, arg := arg, outcome := .taken, count := s.readback.count + 1 } := by
  unfold State.takeReset State.softReset
  rw [abandonVisit_eq]
  rfl

/-- Settles O4: POWER_ON and the reset line, then RESET with the bytes it clears and those it keeps. -/
theorem resetsLeave : Obligations.ResetsLeave := by
  refine ⟨fun s => ⟨rfl, rfl, fun a => rfl⟩, fun s arg written => ?_⟩
  have hr : ∀ a, (s.takeReset arg written).readByte a = memGet (Extent.images.clear (s.abandonVisit written).mem) a :=
    fun a => by rw [takeReset_eq]; rfl
  refine ⟨s.takeReset arg written, rfl, ?_, fun a ha => ?_, fun a ha hw => ?_⟩
  · rw [takeReset_eq]
    rfl
  · rw [hr]
    exact memGet_clear_covered ha
  · rw [hr, memGet_clear_other (x := .images) ha]
    exact readByte_abandonVisit_other hw

/-- Settles O5: every field of the reset state, an axis at its defaults. -/
theorem resetStateValues : Obligations.ResetStateValues := by
  refine ⟨rfl, rfl, rfl, rfl, rfl, rfl, rfl, rfl, rfl, rfl, rfl, rfl, rfl, rfl, rfl, fun g => ?_, rfl, fun o => ?_,
    fun a => rfl, fun ax => ?_⟩
  · exact Vector.getElem_replicate _
  · fin_cases o <;> rfl
  · rw [reset_axis]
    decide

/-! ### POST (R22, R23) -/

/-- Controller CPU activity touches the supervision timer alone (R169). -/
theorem activity_eq_timer : s.activity = { s with supTimer := s.timerAfterActivity } := by
  unfold State.activity State.timerAfterActivity State.loadSupervision
  split <;> rfl

theorem takePost_powerUp {v : Word} (h : s.modState = .powerUp) : s.takePost v = s := if_pos h

theorem takePost_queued {v : Word} (h : s.modState ≠ .powerUp) (hq : s.postQueue.length < 8) :
    s.takePost v = { s with postQueue := s.postQueue ++ [v.extractLsb' 0 16], supTimer := s.timerAfterActivity } := by
  unfold State.takePost
  rw [if_neg h, if_pos (by exact hq), activity_eq_timer]
  rfl

/-- A report recorded leaves what the supervision timer hangs on. -/
theorem timerAfterActivity_recordFault {sc : Scope} {c d : Nat} :
    (s.recordFault sc c d n).timerAfterActivity = s.timerAfterActivity := by
  unfold State.recordFault
  split
  · rfl
  · dsimp only
    split <;> rfl

theorem takePost_overrun {v : Word} (h : s.modState ≠ .powerUp) (hq : 8 ≤ s.postQueue.length) :
    s.takePost v = { s.recordFault .module 102 (v.extractLsb' 0 16).toNat 0xFFFF with
      supTimer := s.timerAfterActivity } := by
  unfold State.takePost
  rw [if_neg h, if_neg (by exact Nat.not_lt.2 hq), activity_eq_timer, timerAfterActivity_recordFault]
  rfl

theorem halves_low {low high : Nat} : (halves low high).extractLsb' 0 16 = BitVec.ofNat 16 low :=
  BitVec.extractLsb'_append_eq_right

theorem halves_high {low high : Nat} : (halves low high).extractLsb' 16 16 = BitVec.ofNat 16 high :=
  BitVec.extractLsb'_append_eq_left

/-- Settles O8: the three fates of a write to POST, the word a read returns, the word of the image. -/
theorem postWrite : Obligations.PostWrite := by
  intro s v
  refine ⟨fun h => ?_, fun h hq => ?_, fun h hq => ?_, fun hq => ⟨?_, ?_⟩, ?_⟩
  · exact congrArg Host.Outcome.next (takePost_powerUp h)
  · exact congrArg Host.Outcome.next (takePost_queued h hq)
  · exact congrArg Host.Outcome.next (takePost_overrun h hq)
  · unfold State.postReadWord
    rw [halves_low, BitVec.toNat_ofNat, Nat.mod_eq_of_lt (by omega)]
  · exact halves_high
  · have hm : (0x4C, wordOfNat s.postQueue.length) ∈ s.moduleWords := by simp [State.moduleWords]
    unfold State.imageWords
    exact List.mem_append_left _ (List.mem_append_left _ (List.mem_append_left _ hm))

end Sys2Proof.Machine
end

section
/-!
The capacities (R22, R35, R160): every operation keeps the queues, lists and tables within their bounds, and one entry
for a scope. Where an operation carries an event through, its frame says so; the room for what is added is that of
the check before it.
-/

open Sys2Proof Sys2Proof.Machine

namespace Sys2Proof.Machine

variable {p : Keep} {s t x : State} {r : Race} {ax : AxisIx} {m : Quad Bool} {c : CellWords} {w : Walk} {n : Nat}

/-! ### Bounds under updates -/

/-- A state whose queues, lists and tables hold no more, with no scope entered twice, is within the bounds. -/
theorem withinBounds_of_le (hb : s.withinBounds) (h1 : t.postQueue.length ≤ s.postQueue.length)
    (h2 : t.watches.length ≤ s.watches.length) (h3 : ∀ ax, (t.axis ax).list.length ≤ (s.axis ax).list.length)
    (h4 : (s.faults.map (·.scope)).Nodup → (t.faults.map (·.scope)).Nodup) : t.withinBounds := by
  obtain ⟨b1, b2, b3, b4⟩ := hb
  exact ⟨h1.trans b1, h2.trans b2, fun ax ha => (h3 ax).trans (b3 ax ha), h4 b4⟩

/-- What carries an event through adds nothing (R22, R35, R160). -/
theorem withinBounds_of_frame (hb : s.withinBounds) (h : Frame p [] s t) : t.withinBounds := by
  have hq : t.postQueue = s.postQueue := by
    have hf := h.fixed
    simp only [State.fixed, Prod.mk.injEq] at hf
    obtain ⟨-, -, -, -, -, -, -, -, hq, -⟩ := hf
    exact hq
  have hw : t.watches.length ≤ s.watches.length := by simpa using h.watches.length_le
  exact withinBounds_of_le hb (congrArg List.length hq).le hw h.lists h.nodup

/-- The same for a frame that leaves positions open. -/
theorem withinBounds_of_openFrame (hb : s.withinBounds) (h : Frame ⟨false, false⟩ [] s t) : t.withinBounds :=
  withinBounds_of_frame hb h

/-- An update of an axis that keeps its list. -/
theorem withinBounds_updAxis {f : Axis → Axis} (hb : s.withinBounds) (h : (f (s.axis ax)).list = (s.axis ax).list) :
    (s.updAxis ax f).withinBounds := by
  refine withinBounds_of_le hb le_rfl le_rfl (fun j => ?_) id
  by_cases k : j = ax
  · subst k; rw [axis_updAxis_same, h]
  · rw [axis_updAxis_other _ _ k]

/-- An update of every axis that lengthens no list. -/
theorem withinBounds_mapAxes {f : Axis → Axis} (hb : s.withinBounds) (hf : ∀ a, (f a).list.length = a.list.length)
    (h1 : t.axes = s.axes.map f) (h2 : t.postQueue = s.postQueue) (h3 : t.watches.length = s.watches.length)
    (h4 : t.faults = s.faults) : t.withinBounds := by
  refine withinBounds_of_le hb (congrArg List.length h2).le h3.le (fun ax => ?_) (fun k => h4 ▸ k)
  simp only [State.axis, h1, Quad.get_map, hf, le_refl]

/-- The entries that stay of the annunciation queue keep it to one for a scope (R160). -/
theorem withinBounds_filterFaults {f : FaultEntry → Bool} (hb : s.withinBounds) :
    ({ s with faults := s.faults.filter f } : State).withinBounds :=
  withinBounds_of_le hb le_rfl le_rfl (fun _ => le_rfl) fun k => (List.filter_sublist.map _).nodup k

theorem withinBounds_recordFault (hb : s.withinBounds) {sc : Scope} {code d : Nat} :
    (s.recordFault sc code d n).withinBounds := withinBounds_of_openFrame hb (frame_recordFault (Frame.refl _ s))

theorem withinBounds_enter (hb : s.withinBounds) (ms : ModState) : (s.enter ms).withinBounds := by
  cases ms <;> exact hb

theorem withinBounds_report {q : Quantity} {v : Sample} (hb : s.withinBounds) : (s.report q v).withinBounds := hb

theorem withinBounds_addJobs {js : List Job} (hb : s.withinBounds) : (s.addJobs js).withinBounds := hb

theorem withinBounds_activity (hb : s.withinBounds) : s.activity.withinBounds := by
  rw [activity_eq]
  exact hb

theorem withinBounds_noteControl (hb : s.withinBounds) (code arg : Byte) (o : CtlOutcome) :
    (s.noteControl code arg o).withinBounds :=
  withinBounds_activity (s := { s with readback := s.readback.next code arg o }) hb

/-- What each of a row of steps keeps, beside each cell in one place, the row keeps. -/
theorem withinBounds_foldl {α : Type} {f : State → α → State} (hp : ∀ (a : α) {x : State}, x.onePlace → (f x a).onePlace)
    (hf : ∀ (a : α) {x : State}, x.onePlace → x.withinBounds → (f x a).withinBounds) (l : List α) (hs : s.onePlace)
    (hb : s.withinBounds) : (l.foldl f s).withinBounds :=
  (List.foldlRecOn (motive := fun x => x.onePlace ∧ x.withinBounds) l f ⟨hs, hb⟩
    fun _ h a _ => ⟨hp a h.1, hf a h.1 h.2⟩).2

/-! ### What follows an event -/

theorem withinBounds_stopIfAtRest (hb : s.withinBounds) : s.stopIfAtRest.withinBounds := by
  unfold State.stopIfAtRest
  split
  · exact withinBounds_enter hb _
  · exact hb

theorem withinBounds_close (hs : t.onePlace) (hb : t.withinBounds) : (s.close r t).withinBounds := by
  refine close_induct State.withinBounds ?_ fun x n hx _ => ?_
  · exact withinBounds_stopIfAtRest
      (withinBounds_of_openFrame hb (frame_followUp (Frame.refl _ t) (watches_nodup hs)))
  · rw [detach_fixed]
    exact hx

/-- An event that a frame carries through is closed within the bounds. -/
theorem withinBounds_close_frame (hs : x.onePlace) (hb : x.withinBounds) (h : Frame ⟨false, false⟩ [] x t) :
    (s.close r t).withinBounds :=
  withinBounds_close (CellStep.of_frame' (new := []) hs h).onePlace (withinBounds_of_openFrame hb h)

/-! ### Control orders and visits -/

/-- A carried request keeps the bounds. -/
def Carried.WithinBounds : Carried → Prop
  | .done t => t.withinBounds
  | .refused _ _ => True

theorem Carried.WithinBounds.of_framed {q : Carried} (hb : s.withinBounds) (h : q.Framed p [] s) : q.WithinBounds := by
  cases q
  · exact withinBounds_of_frame hb h
  · trivial

theorem withinBounds_cancelWatch (hs : s.onePlace) (hb : s.withinBounds) (n : Nat) : (s.cancelWatch n).WithinBounds := by
  unfold State.cancelWatch
  split
  · rename_i v hv
    exact withinBounds_of_openFrame hb (frame_endWatch (Frame.refl _ s) (watches_nodup hs) (mem_of_watchOf hv))
  · trivial

theorem withinBounds_removeFault (hb : s.withinBounds) (sc : Scope) : (s.removeFault sc).withinBounds :=
  withinBounds_filterFaults hb

theorem withinBounds_clearAxisFault (hb : s.withinBounds) : (s.clearAxisFault ax).WithinBounds := by
  have h := withinBounds_removeFault hb (.axis ax)
  unfold State.clearAxisFault
  dsimp only
  repeat' split
  · trivial
  · trivial
  · trivial
  · exact withinBounds_updAxis h rfl
  · exact h

theorem withinBounds_clearModuleFault (hb : s.withinBounds) : s.clearModuleFault.WithinBounds := by
  have h := withinBounds_removeFault hb .module
  unfold State.clearModuleFault
  dsimp only
  repeat' split
  · trivial
  · exact withinBounds_enter h .running
  · exact h

/-- A control order adds nothing to a queue, a list or a table (R39). -/
theorem withinBounds_carryOut (hs : s.onePlace) (hb : s.withinBounds) (k : ControlKind) (sc : Scope) (q : Params) :
    (s.carryOut k sc q).WithinBounds := by
  have fr : Frame ⟨false, true⟩ [] s s := Frame.refl _ s
  unfold State.carryOut
  split
  · exact .of_framed hb (framed_stopAxis fr)
  · exact .of_framed hb (framed_hold fr)
  · exact .of_framed hb (framed_resume fr)
  · exact .of_framed hb (framed_advance fr)
  · exact withinBounds_of_frame hb (frame_setOverride fr)
  · exact .of_framed hb (framed_setPosition fr)
  · exact withinBounds_clearAxisFault hb
  · exact withinBounds_of_frame hb (frame_openGate fr)
  · exact withinBounds_of_frame hb (frame_setGate fr)
  · exact withinBounds_cancelWatch hs hb _
  · exact withinBounds_clearModuleFault hb
  all_goals trivial

/-- A motion order that finds room joins its list (R35, R37). -/
theorem withinBounds_admitMotion {k : MotionKind} (hb : s.withinBounds)
    (hr : s.roomCheck (.motion k) (.axis ax) = none) : (s.admitMotion n k ax c).withinBounds := by
  have room : (s.axis ax).list.length < Config.listCapacity := by simpa [State.roomCheck] using hr
  obtain ⟨b1, b2, b3, b4⟩ := hb
  have hq : ((s.admitCell n admittedByte).updAxis ax
      (fun a => { a with list := a.list ++ [entryOf n k c] })).withinBounds := by
    rw [admitCell_eq]
    refine ⟨b1, b2, fun j hj => ?_, b4⟩
    by_cases e : j = ax
    · subst e
      rw [axis_updAxis_same, List.length_append]
      exact room
    · rw [axis_updAxis_other _ _ e]
      exact b3 j hj
  exact withinBounds_of_openFrame hq (frame_settle (Frame.refl _ _))

/-- A watch that finds room joins the table (R35, R38). -/
theorem withinBounds_arm {sc : Scope} (hb : s.withinBounds) (hr : s.roomCheck .armWatch sc = none) :
    (s.arm n c).withinBounds := by
  have room : s.watches.length < Config.watchCapacity := by simpa [State.roomCheck] using hr
  obtain ⟨b1, b2, b3, b4⟩ := hb
  rw [armed_eq, admitCell_eq]
  refine ⟨b1, ?_, b3, b4⟩
  rw [List.length_append]
  exact room

theorem withinBounds_refuseCell {code : RefusalCode} {d : Nat} {b : Bool} (hb : s.withinBounds) :
    (s.refuseCell n code d b).withinBounds := by
  rw [refuseCell_eq]
  exact hb

theorem withinBounds_endCell {q : Result} {b : Bool} (hb : s.withinBounds) : (s.endCell n q b).withinBounds := by
  rw [endCell_eq]
  exact hb

theorem withinBounds_walk {v : Option Walk} (hb : s.withinBounds) : ({ s with walk := v } : State).withinBounds := hb

/-- A visit carries its verdict through within the bounds (R36 to R39). -/
theorem withinBounds_applyVerdict (hs : s.onePlace) (hb : s.withinBounds) :
    (s.applyVerdict w n c (s.verdict m c)).withinBounds := by
  rcases verdict_cases s m c with ⟨code, d, a, h⟩ | ⟨k, ax, h, hr⟩ | ⟨sc, h, hr⟩ | ⟨q, sc, s', h, hd⟩ <;> rw [h]
  · exact withinBounds_walk (withinBounds_refuseCell hb)
  · exact withinBounds_walk (withinBounds_admitMotion hb hr)
  · exact withinBounds_walk (withinBounds_arm hb hr)
  · have hq := withinBounds_carryOut hs hb q sc c.params
    rw [hd] at hq
    exact withinBounds_walk (withinBounds_endCell (s := s'.setHeld n) hq)

theorem withinBounds_visit (hs : s.onePlace) (hb : s.withinBounds) : (s.visit w).withinBounds := by
  unfold State.visit
  split
  · exact hb
  · exact withinBounds_applyVerdict hs hb

/-! ### The register window -/

/-- A head is queued where there is room for it (R22). -/
theorem withinBounds_takePost (hb : s.withinBounds) (v : Word) : (s.takePost v).withinBounds := by
  by_cases h : s.modState = .powerUp
  · rw [takePost_powerUp h]
    exact hb
  by_cases hq : s.postQueue.length < 8
  · rw [takePost_queued h hq]
    obtain ⟨-, b2, b3, b4⟩ := hb
    refine ⟨?_, b2, b3, b4⟩
    rw [List.length_append]
    exact hq
  · rw [takePost_overrun h (Nat.le_of_not_lt hq)]
    exact withinBounds_recordFault hb (sc := .module) (code := 102) (d := (v.extractLsb' 0 16).toNat) (n := 0xFFFF)

theorem withinBounds_detach (hb : s.withinBounds) (n : Nat) : (s.detach n).withinBounds :=
  withinBounds_activity hb

theorem withinBounds_takeStart (hb : s.withinBounds) (arg : Byte) : (s.takeStart arg).withinBounds := by
  have h := withinBounds_noteControl hb codeStart arg (ctlOutcome (s.modState == .stopped))
  unfold State.takeStart
  dsimp only
  split
  · exact withinBounds_mapAxes h (f := fun a => { a with prof := { a.prof with override := 100 } }) (fun _ => rfl) rfl
      rfl rfl rfl
  · exact h

theorem withinBounds_stopBlock (b : StopBlock) {x : State} (hs : x.onePlace) (hb : x.withinBounds) :
    (x.stopBlock b).withinBounds := by
  cases b with
  | watchUnit =>
      exact withinBounds_of_openFrame (t := x.cancelAll) hb (frame_cancelAll (Frame.refl _ x) (watches_nodup hs))
  | sequencer ax => exact withinBounds_of_openFrame hb (frame_moduleStopAxis (Frame.refl _ x))

theorem withinBounds_beginStopping (hs : s.onePlace) (hb : s.withinBounds) : (s.beginStopping r).withinBounds :=
  withinBounds_foldl (fun b _ hx => (cellStep_stopBlock (new := []) b hx).onePlace) withinBounds_stopBlock _
    (onePlace_of_same (t := { s.enter .stopping with supTimer := none }) hs rfl rfl) (withinBounds_enter hb .stopping)

theorem withinBounds_takeStop (hs : s.onePlace) (hb : s.withinBounds) (arg : Byte) : (s.takeStop arg r).withinBounds := by
  unfold State.takeStop
  dsimp only
  split
  · have h1 := (cellStep_noteControl (new := []) hs codeStop arg
      (ctlOutcome (s.modState == .running || s.modState == .silent))).onePlace
    exact withinBounds_close (cellStep_beginStopping (new := []) h1).onePlace
      (withinBounds_beginStopping h1 (withinBounds_noteControl hb _ _ _))
  · exact withinBounds_noteControl hb _ _ _

theorem withinBounds_takeAck (hb : s.withinBounds) (named : Byte) : (s.takeAck named).withinBounds := by
  have h := withinBounds_noteControl hb codeAck named (ctlOutcome s.modState.takesAck)
  unfold State.takeAck
  dsimp only
  split <;> exact h

/-- After a reset every queue, list and table is empty (R186). -/
theorem withinBounds_resetWith (e : Extent) (rb : Readback) : (s.resetWith e rb).withinBounds := by
  refine ⟨Nat.zero_le _, Nat.zero_le _, fun ax _ => ?_, List.nodup_nil⟩
  fin_cases ax <;> exact Nat.zero_le _

theorem withinBounds_controlWrite (hs : s.onePlace) (hb : s.withinBounds) (code arg : Byte) :
    (s.controlWrite code arg).withinBounds := by
  unfold State.controlWrite
  split
  · exact withinBounds_takeStart hb _
  split
  · exact withinBounds_takeStop hs hb _
  split
  · exact withinBounds_resetWith _ _
  split
  · exact withinBounds_takeAck hb _
  split
  · exact withinBounds_noteControl hb _ _ _
  · exact withinBounds_noteControl hb _ _ _

/-! ### The setup check, supervision and the millisecond -/

theorem withinBounds_passSetup (hb : s.withinBounds) : s.passSetup.withinBounds := by
  refine withinBounds_of_le (withinBounds_filterFaults (f := s.keepsEntry) hb) le_rfl le_rfl (fun ax => ?_) id
  fin_cases ax <;> exact (congrArg List.length (startUnder_list _ _)).le

theorem withinBounds_checkAxes (hb : s.withinBounds) (l : List AxisIx) : (s.checkAxes l).withinBounds :=
  withinBounds_of_openFrame hb (frame_foldl (fun _ _ h => frame_addChecks (frame_report h)) l (Frame.refl _ s))

theorem withinBounds_goSilent (hb : s.withinBounds) (l : List AxisIx) : (s.goSilent l).withinBounds := by
  have h := withinBounds_recordFault hb (sc := .module) (code := faultSupervision) (d := 0) (n := noIndex)
  exact List.foldlRecOn (motive := State.withinBounds) l _ (withinBounds_enter h .silent)
    fun x hx ax _ => withinBounds_of_openFrame hx (frame_silenceAxis (Frame.refl _ x))

theorem axisTick_length (a : Axis) : a.tick.list.length = a.list.length := by
  unfold Axis.tick
  dsimp only
  cases a.list <;> rfl

theorem withinBounds_tick (hb : s.withinBounds) : s.tick.withinBounds := by
  unfold State.tick
  split
  · exact hb
  · exact withinBounds_mapAxes hb axisTick_length rfl rfl (List.length_map _) rfl

/-! ### Pulses, edges and inputs -/

theorem withinBounds_pulse (hb : s.withinBounds) : (s.pulse ax).withinBounds := by
  rw [pulse_eq]
  obtain ⟨u, acc, ph, h⟩ := pulsed_counted (a := s.axis ax)
  exact withinBounds_updAxis (s := s.addJobs (s.pulseJobs ax)) (f := fun _ => (s.axis ax).pulsed) hb (by rw [h]; rfl)

theorem withinBounds_moveFeedback (hb : s.withinBounds) (v : Word) : (s.moveFeedback ax v).withinBounds :=
  withinBounds_report (withinBounds_updAxis (withinBounds_report (withinBounds_updAxis hb rfl)) rfl)

theorem withinBounds_encoder (hb : s.withinBounds) (a b : Bool) : (s.encoder ax a b).withinBounds := by
  have h : (s.updAxis ax (fun x => { x with encA := a, encB := b })).withinBounds := withinBounds_updAxis hb rfl
  unfold State.encoder
  dsimp only
  split
  · exact h
  · exact withinBounds_addJobs (List.foldlRecOn (motive := State.withinBounds) _ _ h
      fun x hx d _ => withinBounds_moveFeedback hx _)

theorem withinBounds_setInputs (hs : s.onePlace) (hb : s.withinBounds) (i : Inputs) :
    (s.setInputs ax i r).withinBounds := by
  unfold State.setInputs
  split
  · exact hb
  · have hu := cellStep_updAxis (new := []) (ax := ax) (f := fun a => { a with inputs := i }) hs (fun _ => rfl)
    exact withinBounds_close_frame hu.onePlace (withinBounds_updAxis hb rfl)
      (frame_addChecks (frame_settle (frame_refInput (Frame.refl _ _))))

theorem withinBounds_endClearPulse (hb : s.withinBounds) : (s.endClearPulse ax).withinBounds := by
  unfold State.endClearPulse
  have h : Frame ⟨false, false⟩ [] s
      (s.updRef ax (fun r => { r with clearTimer := none, clearOut := false })) := frame_updRef (Frame.refl _ s)
  dsimp only
  repeat' split
  · exact withinBounds_of_openFrame hb (frame_settle (frame_beginOffset h))
  · exact withinBounds_of_openFrame hb h
  · exact withinBounds_of_openFrame hb h

theorem withinBounds_prepareMemory (hb : s.withinBounds) : s.prepareMemory.withinBounds := by
  rw [prepareMemory_fields]
  exact hb

/-! ### Every command -/

/-- Every command keeps the capacities. -/
theorem withinBounds_exec (c : Instr) (hs : s.onePlace) (hb : s.withinBounds) (h : exec c s = .next t) :
    t.withinBounds := by
  cases c with
  | powerOn | rackResetLine | reset => cases h; exact withinBounds_resetWith _ _
  | selfTestPass =>
      cases h
      split
      · exact withinBounds_enter (withinBounds_prepareMemory hb) _
      · exact hb
  | selfTestFail =>
      cases h
      split
      · exact withinBounds_enter (withinBounds_recordFault (withinBounds_prepareMemory hb)) .halted
      · exact hb
  | postWrite v => cases h; exact withinBounds_takePost hb v
  | collect => cases h; exact withinBounds_detach hb _
  | start arg => cases h; exact withinBounds_takeStart hb arg
  | stop arg r => cases h; exact withinBounds_takeStop hs hb arg
  | ack named => cases h; exact withinBounds_takeAck hb named
  | kick arg => cases h; exact withinBounds_noteControl hb _ _ _
  | unknownCommand code arg => cases h; exact withinBounds_controlWrite hs hb _ _
  | ignoredRegisterWrite o v =>
      cases h
      repeat' split
      · exact withinBounds_takePost hb v
      · exact withinBounds_controlWrite hs hb _ _
      · exact hb
  | setupCheckPass r =>
      cases h
      split
      · have h1 := cellStep_passSetup (new := []) hs
        exact withinBounds_close (cellStep_checkAxes (new := []) h1.onePlace _).onePlace
          (withinBounds_checkAxes (withinBounds_passSetup hb) _)
      · exact hb
  | setupCheckFail =>
      cases h
      repeat' split
      · exact withinBounds_enter (withinBounds_recordFault hb) .stopped
      · exact hb
      · exact hb
  | walkBegin =>
      cases h
      unfold State.beginWalk
      split
      · rename_i q rest _ hq
        exact withinBounds_of_le hb (by rw [hq]; exact Nat.le_succ _) le_rfl (fun _ => le_rfl) id
      · exact hb
      · exact hb
  | cellVisit r =>
      cases h
      split
      · rename_i w hw
        obtain ⟨l, -, hv⟩ := cellStep_visit hs hw
        exact withinBounds_close hv.onePlace (withinBounds_visit hs hb)
      · exact hb
  | outputPulse ax r =>
      cases h
      split
      · exact withinBounds_close (cellStep_pulse (new := []) hs).onePlace (withinBounds_pulse hb)
      · exact hb
  | moduleStopComplete => cases h; exact withinBounds_stopIfAtRest hb
  | encoderEdge ax a b r =>
      cases h
      exact withinBounds_close (cellStep_encoder (new := []) hs a b).onePlace (withinBounds_encoder hb a b)
  | limitInputChange | referenceSwitchChange | indexInputChange | driveReadyChange | driveAlarmChange =>
      cases h; exact withinBounds_setInputs hs hb _
  | eventInputChange i l r =>
      cases h
      split
      · exact hb
      · exact withinBounds_close (cellStep_setEvent (new := []) hs i l).onePlace (withinBounds_report hb)
  | moduleClockTick r =>
      cases h
      split
      · exact hb
      · exact withinBounds_close (cellStep_tick (new := []) hs).onePlace (withinBounds_tick hb)
  | imageRefresh =>
      cases h
      unfold State.refresh
      split
      · exact hb
      · rw [writeWords_eq]
        exact hb
  | elapsedReached n r =>
      cases h
      split
      · rename_i v hv
        exact withinBounds_close_frame hs hb
          (frame_fire (Frame.refl _ s) (watches_nodup hs) (mem_of_watchOf (watchOf_of_elapsedDue hv)))
      · exact hb
  | deadlineExpiry ax r =>
      cases h
      repeat' split
      · exact withinBounds_close_frame hs hb (frame_axisFault (Frame.refl _ s))
      · exact hb
      · exact hb
  | dwellEnd ax r =>
      cases h
      split
      · exact withinBounds_close_frame hs hb (frame_settle (frame_finishHead (Frame.refl _ s)))
      · exact hb
  | pauseExpiry ax r =>
      cases h
      repeat' split
      · exact withinBounds_close_frame hs hb (frame_settle (frame_beginPhase (Frame.refl _ s)))
      · exact hb
      · exact hb
  | clearPulseExpiry ax r =>
      cases h
      split
      · exact withinBounds_close (cellStep_endClearPulse (new := []) hs).onePlace (withinBounds_endClearPulse hb)
      · exact hb
  | triggerPulseExpiry o =>
      cases h
      split <;> exact hb
  | supervisionExpiry r =>
      cases h
      split
      · exact withinBounds_close (cellStep_goSilent (new := []) hs _).onePlace (withinBounds_goSilent hb _)
      · exact hb

/-- A backplane write touches memory and the words read of it. -/
theorem withinBounds_busWrite (b : BusWrite) (hb : s.withinBounds) (h : busWrite b s = .next t) : t.withinBounds := by
  unfold busWrite at h
  split at h
  · cases h
    have hp : (s.prepareBefore b).withinBounds := by
      unfold State.prepareBefore
      split
      · exact withinBounds_prepareMemory hb
      · exact hb
    rw [show (((s.prepareBefore b).shadowSetup b).shadowVisit b).writeWord b.offset b.value
      = (s.prepareBefore b).served b from rfl, served_eq]
    exact hp
  · cases h

/-- Settles O54: every command and every backplane write keeps the capacities. -/
theorem boundsStayKept : Obligations.BoundsStayKept := by
  intro s t hb hs h
  unfold step at h
  split at h
  · refine withinBounds_exec _ ?_ ?_ h
    · exact onePlace_of_same hs rfl rfl
    · exact hb
  · split at h
    · refine withinBounds_busWrite _ ?_ h
      exact hb
    · cases h; exact hb

end Sys2Proof.Machine
end

section
/-!
Bindings (R44, R57 to R60): what each operation needs of the bound marks of a list and what it leaves of them, told on
the state and the list of one axis while every other axis is as it may be. The one place where a list is not as it may
be is between an end that makes an axis IDLE and the start of its next head, which clears the mark.
-/

open Sys2Proof Sys2Proof.Machine

namespace Sys2Proof.Machine

/-! ### Bound marks of a list -/

/-- The bound marks of a list are those that an axis in a state may have (R57 to R60). -/
def wellBound (st : AxisState) (l : List Entry) : Prop :=
  (∀ e ∈ l.head?, e.bound = false ∧ ∀ n ∈ l.tail.head?, n.bound = true →
    st = .running ∧ e.kind.positional = true ∧ e.opts.fly = true ∧ e.decided = true ∧ e.fly = .taken) ∧
  ∀ x ∈ l.tail.tail, x.bound = false

/-- No entry of a list is bound. -/
def unbound (_ : AxisState) (l : List Entry) : Prop := ∀ x ∈ l, x.bound = false

/-- No entry behind the head is bound: what the end of an order leaves, and what a start asks for. -/
def unboundBehind (_ : AxisState) (l : List Entry) : Prop := ∀ x ∈ l.tail, x.bound = false

/-- The bound marks are as they may be, or the axis is IDLE with a next head that is still to start (3.3). -/
def boundToStart (st : AxisState) (l : List Entry) : Prop := wellBound st l ∨ (st = .idle ∧ unboundBehind st l)

/-- The list is empty. -/
def noEntry (_ : AxisState) (l : List Entry) : Prop := l = []

/-- An axis has a property of its state and list, and every other axis has the bound marks it may have. -/
structure State.Binds (s : State) (ax : AxisIx) (P : AxisState → List Entry → Prop) : Prop where
  here : P (s.axis ax).state (s.axis ax).list
  others : ∀ j, j ≠ ax → (s.axis j).bindingOk

variable {P Q : AxisState → List Entry → Prop} {s t x : State} {ax k : AxisIx} {st : AxisState} {l es : List Entry}
  {e n : Entry} {m : Nat}

theorem wellBound_of_unbound (h : unbound st l) : wellBound st l :=
  ⟨fun e he => ⟨h e (List.mem_of_mem_head? he), fun n hn hb => by
    rw [h n (List.mem_of_mem_tail (List.mem_of_mem_head? hn))] at hb; cases hb⟩,
    fun x hx => h x (List.mem_of_mem_tail (List.mem_of_mem_tail hx))⟩

theorem unbound_of_noEntry (h : noEntry st l) : unbound st l := by
  cases h
  exact fun _ hx => absurd hx List.not_mem_nil

/-- A list whose second entry is not bound has no bound entry. -/
theorem unbound_of_second (h : wellBound st l) (hn : ∀ n ∈ l.tail.head?, n.bound = false) : unbound st l := by
  obtain ⟨h1, h2⟩ := h
  intro y hy
  match l, h1, h2, hn, hy with
  | [e], h1, _, _, hy =>
      rw [List.mem_singleton.1 hy]
      exact (h1 e rfl).1
  | e :: n :: more, h1, h2, hn, hy =>
      rcases List.mem_cons.1 hy with rfl | hy
      · exact (h1 y rfl).1
      rcases List.mem_cons.1 hy with rfl | hy
      · exact hn y rfl
      · exact h2 y hy

/-- Where the head takes no fly, or the axis is not RUNNING, nothing is bound. -/
theorem unbound_of_wellBound (h : wellBound st l)
    (hn : st = .running → ∀ e ∈ l.head?, e.kind.positional = true → e.opts.fly = false) : unbound st l := by
  refine unbound_of_second h fun n hb => ?_
  match l, h, hn, hb with
  | e :: m :: more, h, hn, hb =>
      cases hb
      by_contra hm
      obtain ⟨h1, h2, h3, -⟩ := (h.1 e rfl).2 n rfl (by simpa using hm)
      rw [hn h1 e rfl h2] at h3
      cases h3

theorem unbound_of_state (h : wellBound st l) (hs : st ≠ .running) : unbound st l :=
  unbound_of_wellBound h fun h' => absurd h' hs

theorem unboundBehind_of_unbound (h : unbound st l) : unboundBehind st l := fun y hy => h y (List.mem_of_mem_tail hy)

theorem unboundBehind_of_boundToStart (h : boundToStart .idle l) : unboundBehind .idle l :=
  h.elim (fun h => unboundBehind_of_unbound (unbound_of_state h (by decide))) (·.2)

theorem boundToStart_of_unbound (h : unbound st l) : boundToStart st l := Or.inl (wellBound_of_unbound h)

/-! ### Bound marks of a state -/

theorem binds_wellBound : s.Binds ax wellBound ↔ ∀ j, (s.axis j).bindingOk := by
  refine ⟨fun h j => ?_, fun h => ⟨h ax, fun j _ => h j⟩⟩
  by_cases hj : j = ax
  · rw [hj]; exact h.here
  · exact h.others j hj

theorem State.Binds.imp (h : s.Binds ax P)
    (hp : P (s.axis ax).state (s.axis ax).list → Q (s.axis ax).state (s.axis ax).list) : s.Binds ax Q :=
  ⟨hp h.here, h.others⟩

theorem State.Binds.well (h : s.Binds ax unbound) : s.Binds ax wellBound := h.imp wellBound_of_unbound

theorem State.Binds.toStart (h : s.Binds ax wellBound) : s.Binds ax boundToStart := h.imp Or.inl

theorem State.Binds.none (h : s.Binds ax noEntry) : s.Binds ax unbound := h.imp unbound_of_noEntry

theorem State.Binds.behind (h : s.Binds ax unbound) : s.Binds ax unboundBehind := h.imp unboundBehind_of_unbound

/-- What is asked of one axis serves for another, where both are as they may be. -/
theorem State.Binds.at (h : s.Binds ax wellBound) (k : AxisIx) : s.Binds k wellBound :=
  binds_wellBound.2 (binds_wellBound.1 h)

theorem binds_same (h : ∀ j, (t.axis j).state = (s.axis j).state ∧ (t.axis j).list = (s.axis j).list) :
    t.Binds ax P ↔ s.Binds ax P := by
  have hb : ∀ j, (t.axis j).bindingOk ↔ (s.axis j).bindingOk := fun j => by
    obtain ⟨h1, h2⟩ := h j
    unfold Axis.bindingOk
    rw [h1, h2]
  obtain ⟨h1, h2⟩ := h ax
  constructor
  · intro ⟨hh, ho⟩
    exact ⟨by rwa [← h1, ← h2], fun j hj => (hb j).1 (ho j hj)⟩
  · intro ⟨hh, ho⟩
    exact ⟨by rwa [h1, h2], fun j hj => (hb j).2 (ho j hj)⟩

theorem binds_axes (h : t.axes = s.axes) : t.Binds ax P ↔ s.Binds ax P :=
  binds_same fun j => by simp [State.axis, h]

theorem binds_updAxis_keeps {f : Axis → Axis} (h1 : ∀ a, (f a).state = a.state := by intro a; rfl)
    (h2 : ∀ a, (f a).list = a.list := by intro a; rfl) : (s.updAxis k f).Binds ax P ↔ s.Binds ax P := by
  refine binds_same fun j => ?_
  by_cases hj : j = k
  · subst hj; rw [axis_updAxis_same]; exact ⟨h1 _, h2 _⟩
  · rw [axis_updAxis_other _ _ hj]; exact ⟨rfl, rfl⟩

theorem binds_updAxis {f : Axis → Axis} : (s.updAxis ax f).Binds ax P ↔
    s.Binds ax (fun _ _ => P (f (s.axis ax)).state (f (s.axis ax)).list) := by
  have ho : (∀ j, j ≠ ax → ((s.updAxis ax f).axis j).bindingOk) ↔ ∀ j, j ≠ ax → (s.axis j).bindingOk :=
    forall₂_congr fun j hj => by rw [axis_updAxis_other _ _ hj]
  constructor
  · intro ⟨h1, h2⟩
    exact ⟨by rwa [axis_updAxis_same] at h1, ho.1 h2⟩
  · intro ⟨h1, h2⟩
    exact ⟨by rwa [axis_updAxis_same], ho.2 h2⟩

/-! ### Operations that leave states and lists -/

@[simp] theorem binds_updProf {f : Profile → Profile} : (s.updProf k f).Binds ax P ↔ s.Binds ax P :=
  binds_updAxis_keeps

@[simp] theorem binds_updRef {f : RefCtl → RefCtl} : (s.updRef k f).Binds ax P ↔ s.Binds ax P :=
  binds_updAxis_keeps

@[simp] theorem binds_addJobs {js : List Job} : (s.addJobs js).Binds ax P ↔ s.Binds ax P := binds_axes rfl

@[simp] theorem binds_report {q : Quantity} {v : Sample} : (s.report q v).Binds ax P ↔ s.Binds ax P := binds_axes rfl

@[simp] theorem binds_addChecks : (s.addChecks k).Binds ax P ↔ s.Binds ax P := binds_axes rfl

@[simp] theorem binds_setGate {g : Fin 16} {b : Bool} : (s.setGate g b).Binds ax P ↔ s.Binds ax P := binds_axes rfl

@[simp] theorem binds_pulseTrigger {o : Fin 4} {m : Nat} : (s.pulseTrigger o m).Binds ax P ↔ s.Binds ax P :=
  binds_axes rfl

@[simp] theorem binds_updWatch {m : Nat} {f : Watch → Watch} : (s.updWatch m f).Binds ax P ↔ s.Binds ax P :=
  binds_axes rfl

@[simp] theorem binds_writeCellState {m : Nat} {b : Byte} : (s.writeCellState m b).Binds ax P ↔ s.Binds ax P :=
  binds_axes rfl

@[simp] theorem binds_writeResult {m : Nat} {r : Result} : (s.writeResult m r).Binds ax P ↔ s.Binds ax P :=
  binds_axes (by rw [writeResult_eq])

@[simp] theorem binds_endCell {m : Nat} {r : Result} {b : Bool} : (s.endCell m r b).Binds ax P ↔ s.Binds ax P :=
  binds_axes (by rw [endCell_eq])

@[simp] theorem binds_waiting {w : List (Fin 16 × AxisIx)} :
    ({ s with waiting := w } : State).Binds ax P ↔ s.Binds ax P := binds_axes rfl

@[simp] theorem binds_watches {w : List Watch} : ({ s with watches := w } : State).Binds ax P ↔ s.Binds ax P :=
  binds_axes rfl

@[simp] theorem binds_agenda {w : List Job} : ({ s with agenda := w } : State).Binds ax P ↔ s.Binds ax P :=
  binds_axes rfl

@[simp] theorem binds_recordFault {sc : Scope} {c d m : Nat} : (s.recordFault sc c d m).Binds ax P ↔ s.Binds ax P := by
  refine binds_axes ?_
  unfold State.recordFault
  dsimp only
  repeat' split
  all_goals rfl

@[simp] theorem binds_grantClaim : (s.grantClaim e).Binds ax P ↔ s.Binds ax P := by
  rw [grantClaim_eq]
  exact binds_axes rfl

@[simp] theorem binds_claimSecond : (s.claimSecond n).Binds ax P ↔ s.Binds ax P := by
  rw [claimSecond_eq]
  exact binds_axes rfl

@[simp] theorem binds_setSpeed {sq : Nat} {acc : Int} {ph : RampPhase} :
    (s.setSpeed k sq acc ph).Binds ax P ↔ s.Binds ax P := by
  unfold State.setSpeed
  dsimp only
  split <;> simp

@[simp] theorem binds_stand : (s.stand k).Binds ax P ↔ s.Binds ax P := by
  unfold State.stand
  split
  · rw [binds_setSpeed, binds_updAxis_keeps]
  · simp

@[simp] theorem binds_beginStop {r : Rates} {b : Option Nat} : (s.beginStop k r b).Binds ax P ↔ s.Binds ax P := by
  simp [State.beginStop]

@[simp] theorem binds_setPhase {ph : RefPhase} : (s.setPhase k ph).Binds ax P ↔ s.Binds ax P := binds_updRef

@[simp] theorem binds_beginMotion {d : Dir} {p : Option Plan} {v : Nat} {ph : RampPhase} :
    (s.beginMotion k d p v ph).Binds ax P ↔ s.Binds ax P := by simp [State.beginMotion]

@[simp] theorem binds_planHead {a0 : Int} {v : Nat} : (s.planHead k a0 e v).Binds ax P ↔ s.Binds ax P := by
  simp [State.planHead]

@[simp] theorem binds_endEntry {c : EndCode} {r : Nat} : (s.endEntry k c r e).Binds ax P ↔ s.Binds ax P := binds_endCell

@[simp] theorem binds_endFlushed : ∀ {es : List Entry} {s : State}, (s.endFlushed k es).Binds ax P ↔ s.Binds ax P
  | [], _ => Iff.rfl
  | e :: es, s => (binds_endFlushed (es := es) (s := s.endEntry k .flushed 0 { e with bound := false })).trans
      binds_endEntry

@[simp] theorem binds_assignPositions {c f : Word} {b : Bool} :
    (s.assignPositions k c f b).Binds ax P ↔ s.Binds ax P := by
  unfold State.assignPositions
  dsimp only
  rw [binds_watches, binds_updAxis_keeps]

@[simp] theorem binds_beginClearPulse : (s.beginClearPulse k e).Binds ax P ↔ s.Binds ax P :=
  binds_updRef.trans binds_setPhase

@[simp] theorem binds_refEdge : (s.refEdge k).Binds ax P ↔ s.Binds ax P := binds_stand.trans binds_updRef

@[simp] theorem binds_endWatch {w : Watch} {c : EndCode} : (s.endWatch w c).Binds ax P ↔ s.Binds ax P := by
  rw [endWatch_eq]
  exact binds_axes rfl

/-! ### States and heads changed -/

theorem binds_setAxisState {c : StopCause} : (s.setAxisState ax st c).Binds ax P ↔ s.Binds ax (fun _ l => P st l) := by
  unfold State.setAxisState
  rw [binds_updAxis]
  exact ⟨fun h => h.imp id, fun h => h.imp id⟩

/-- A head changed in what the bound marks do not speak of. -/
theorem wellBound_head {f : Entry} (h : wellBound st (e :: es)) (hb : f.bound = e.bound) (hk : f.kind = e.kind)
    (ho : f.opts = e.opts) (hd : f.decided = e.decided) (hf : f.fly = e.fly) : wellBound st (f :: es) := by
  obtain ⟨h1, h2⟩ := h
  refine ⟨fun y hy => ?_, h2⟩
  cases hy
  rw [hb, hk, ho, hd, hf]
  exact h1 e rfl

theorem binds_updHead_well {f : Entry → Entry} (h : s.Binds ax wellBound)
    (hf : ∀ e, (f e).bound = e.bound ∧ (f e).kind = e.kind ∧ (f e).opts = e.opts ∧ (f e).decided = e.decided ∧
      (f e).fly = e.fly) : (s.updHead ax f).Binds ax wellBound := by
  refine binds_updAxis.2 (h.imp fun hw => ?_)
  cases hl : (s.axis ax).list with
  | nil => rwa [hl] at hw
  | cons e es =>
      obtain ⟨h1, h2, h3, h4, h5⟩ := hf e
      rw [hl] at hw
      exact wellBound_head hw h1 h2 h3 h4 h5

/-- A head that is not bound put in the place of the head of a list with nothing bound behind it. -/
theorem binds_updHead_unbound {f : Entry → Entry} (h : s.Binds ax unboundBehind)
    (hf : ∀ e ∈ (s.axis ax).list.head?, (f e).bound = false) : (s.updHead ax f).Binds ax unbound := by
  refine binds_updAxis.2 (h.imp fun hw => ?_)
  cases hl : (s.axis ax).list with
  | nil => exact fun y hy => absurd hy List.not_mem_nil
  | cons e es =>
      rw [hl] at hw hf
      intro y hy
      rcases List.mem_cons.1 hy with rfl | hy
      · exact hf e rfl
      · exact hw y hy

/-- The same where nothing was bound and the mark is left. -/
theorem binds_updHead_keeps {f : Entry → Entry} (h : s.Binds ax unbound) (hf : ∀ e, (f e).bound = e.bound) :
    (s.updHead ax f).Binds ax unbound :=
  binds_updHead_unbound h.behind fun e he => (hf e).trans (h.here e (List.mem_of_mem_head? he))

/-! ### Ends of orders (R45, R46) -/

/-- A dropped binding leaves nothing bound (R60). -/
theorem binds_dropBinding (h : s.Binds ax wellBound) : (s.dropBinding ax).Binds ax unbound := by
  have hw := h.here
  unfold State.dropBinding
  split
  · rename_i e n rest hl
    rw [hl] at hw
    have he : e.bound = false := (hw.1 e rfl).1
    split
    · refine binds_updAxis.2 (h.imp fun _ y hy => ?_)
      rcases List.mem_cons.1 hy with rfl | hy
      · exact he
      rcases List.mem_cons.1 hy with rfl | hy
      · rfl
      · exact hw.2 y hy
    · rename_i hn
      refine h.imp fun hh => unbound_of_second hh fun m hm => ?_
      rw [hl] at hm
      cases hm
      simpa using hn
  · rename_i hl
    refine h.imp fun hh => unbound_of_second hh fun m hm => ?_
    cases hs : (s.axis ax).list with
    | nil => rw [hs] at hm; cases hm
    | cons e es =>
        cases es with
        | nil => rw [hs] at hm; cases hm
        | cons n more => exact absurd hs (hl e n more)

/-- The end of a head leaves the list behind it. -/
theorem binds_endHead {c : EndCode} {r : Nat} (h : s.Binds ax P) (hq : P (s.axis ax).state (s.axis ax).list →
    Q (s.axis ax).state (s.axis ax).list.tail) : (s.endHead ax c r).Binds ax Q := by
  unfold State.endHead
  split
  · rename_i hl
    rw [hl] at hq
    refine h.imp fun hp => ?_
    rw [hl]
    rw [hl] at hp
    exact hq hp
  · rename_i e rest hl
    rw [hl] at hq
    dsimp only
    rw [binds_endEntry]
    have h' : (s.updAxis ax (fun a =>
        { a with list := rest
                 ref := if (decide (e.kind = .reference) && decide (e.status = .active)) = true then a.ref.afterRun
                   else a.ref
                 referenced := if ((decide (e.kind = .reference) && decide (e.status = .active)) &&
                   (decide (c = .stopped) || decide (c = .faulted))) = true then false else a.referenced })).Binds ax Q :=
      binds_updAxis.2 (h.imp fun hp => by rw [hl] at hp; exact hq hp)
    split
    · exact binds_waiting.2 h'
    · exact h'

theorem binds_endHead_behind {c : EndCode} {r : Nat} (h : s.Binds ax wellBound) :
    (s.endHead ax c r).Binds ax unboundBehind := binds_endHead h fun hw => hw.2

theorem binds_endHead_unbound {c : EndCode} {r : Nat} (h : s.Binds ax unbound) : (s.endHead ax c r).Binds ax unbound :=
  binds_endHead h fun hw y hy => hw y (List.mem_of_mem_tail hy)

/-- The head ended at standstill: the axis is IDLE, its next head still to start. -/
theorem binds_finishHead {c : EndCode} (h : s.Binds ax wellBound) : (s.finishHead ax c).Binds ax boundToStart :=
  binds_setAxisState.2 ((binds_endHead_behind (binds_stand.2 h)).imp fun hw => Or.inr ⟨rfl, hw⟩)

theorem binds_finishHead_unbound {c : EndCode} (h : s.Binds ax unbound) : (s.finishHead ax c).Binds ax unbound :=
  binds_setAxisState.2 (binds_endHead_unbound (binds_stand.2 h))

theorem binds_flushTail (h : s.Binds ax wellBound) : (s.flushTail ax).Binds ax unbound := by
  unfold State.flushTail
  dsimp only
  rw [binds_endFlushed]
  exact binds_updAxis.2 ((binds_dropBinding h).imp fun hu y hy => hu y (List.mem_of_mem_take hy))

theorem binds_flushAll (h : s.Binds ax P) : (s.flushAll ax).Binds ax noEntry := by
  unfold State.flushAll
  dsimp only
  rw [binds_endFlushed]
  exact binds_updAxis.2 (h.imp fun _ => rfl)

theorem binds_flushIf {b : Bool} (h : s.Binds ax unbound) : (s.flushIf ax b).Binds ax unbound := by
  unfold State.flushIf
  split
  · exact binds_flushTail h.well
  · exact h

/-! ### Faults (R69, R163, R164) -/

theorem State.Binds.any (h : s.Binds ax P) : s.Binds ax (fun _ _ => True) := h.imp fun _ => trivial

theorem binds_becomeFaulted (h : s.Binds ax P) : (s.becomeFaulted ax).Binds ax noEntry :=
  binds_flushAll (P := fun _ _ => True) (binds_updAxis.2 (binds_stand.2 h.any))

theorem others_dropBinding (h : s.Binds ax P) : (s.dropBinding ax).Binds ax (fun _ _ => True) := by
  unfold State.dropBinding
  repeat' split
  · exact binds_updAxis.2 h.any
  · exact h.any
  · exact h.any

theorem others_endHead {c : EndCode} {r : Nat} (h : s.Binds ax P) : (s.endHead ax c r).Binds ax (fun _ _ => True) :=
  binds_endHead h fun _ => trivial

theorem binds_faultList {c : Nat} (h : s.Binds ax P) : (s.faultList ax c).Binds ax noEntry := by
  have hd := others_dropBinding h
  unfold State.faultList
  dsimp only
  repeat' split
  · exact binds_flushAll hd
  · exact binds_flushAll (others_endHead hd)
  · exact binds_flushAll hd

theorem binds_faultRamp {r : Rates} (h : s.Binds ax noEntry) : (s.faultRamp ax r).Binds ax noEntry := by
  have hs : ((s.updAxis ax (fun a => { a with state := .stopping, stopCause := .fault, pendingFault := true })).beginStop
      ax r none).Binds ax noEntry := binds_beginStop.2 (binds_updAxis.2 (h.imp id))
  unfold State.faultRamp
  dsimp only
  split
  · exact binds_becomeFaulted hs
  · exact binds_addChecks.2 hs

theorem binds_firstFault {c : Nat} {r : Reaction} (h : s.Binds ax P) : (s.firstFault ax c r).Binds ax noEntry := by
  unfold State.firstFault
  dsimp only
  split
  · exact binds_faultRamp (binds_faultList h)
  · exact binds_becomeFaulted (binds_faultList h)

theorem binds_react {c : Nat} {r : Reaction} (h : s.Binds ax wellBound) : (s.react ax c r).Binds ax wellBound := by
  unfold State.react
  split
  · exact h
  · exact h
  · split
    · split
      · exact h
      · exact (binds_becomeFaulted h).none.well
    · exact (binds_firstFault h).none.well
  all_goals exact (binds_firstFault h).none.well

theorem binds_axisFault {c d : Nat} {r : Reaction} (h : s.Binds ax wellBound) :
    (s.axisFault ax c d r).Binds ax wellBound := binds_react (binds_recordFault.2 h)

theorem binds_limitFault {d : Dir} (h : s.Binds ax wellBound) : (s.limitFault ax d).Binds ax wellBound := by
  unfold State.limitFault
  dsimp only
  split
  · exact binds_axisFault (Iff.mpr binds_updAxis_keeps h)
  · exact binds_axisFault h

theorem binds_notReadyFault (h : s.Binds ax wellBound) : (s.notReadyFault ax).Binds ax wellBound := binds_axisFault h

theorem binds_refFail {ph : RefPhase} {r : Nat} (h : s.Binds ax wellBound) : (s.refFail ax ph r).Binds ax wellBound :=
  binds_axisFault h

theorem binds_seekBackFail (h : s.Binds ax wellBound) : (s.seekBackFail ax).Binds ax wellBound :=
  binds_refFail (Iff.mpr binds_updAxis_keeps h)

/-! ### Starts (R50 to R52, R57, R135) -/

theorem binds_edgeDecelIfDue (h : s.Binds ax wellBound) : (s.edgeDecelIfDue ax).Binds ax wellBound := by
  unfold State.edgeDecelIfDue
  split
  · rename_i hd
    have hu : s.Binds ax unbound := h.imp fun hw => by
      refine unbound_of_wellBound hw fun _ e he hp => ?_
      unfold Axis.edgeDecelReached at hd
      rw [show (s.axis ax).list.head? = some e from he] at hd
      cases hpl : (s.axis ax).prof.plan with
      | none => simp [hpl] at hd
      | some q =>
          simp only [hpl, Bool.and_eq_true, decide_eq_true_eq] at hd
          rw [hd.1.2] at hp
          cases hp
    exact State.Binds.well (binds_updAxis.2 (hu.imp id))
  · exact h

/-- The flying decision binds the second entry behind a move with FLY of a RUNNING axis alone (R57 to R59). -/
theorem binds_decideFly {a0 : Int} (h : s.Binds ax wellBound) (hr : (s.axis ax).state = .running)
    (hf : ∀ e ∈ (s.axis ax).list.head?, e.kind.positional = true ∧ e.opts.fly = true ∧ e.decided = false) :
    (s.decideFly ax a0).Binds ax wellBound := by
  have hu : s.Binds ax unbound := h.imp fun hw => unbound_of_second hw fun n hn => by
    cases hl : (s.axis ax).list with
    | nil => rw [hl] at hn; cases hn
    | cons e es =>
        rw [hl] at hw hn hf
        by_contra hb
        have hd := ((hw.1 e rfl).2 n hn (by simpa using hb)).2.2.2.1
        rw [(hf e rfl).2.2] at hd
        cases hd
  unfold State.decideFly
  dsimp only
  split
  · exact h
  · rename_i e rest hl
    have hh := hu.here
    rw [hl] at hh hf
    obtain ⟨h1, h2, -⟩ := hf e rfl
    split
    · rename_i n more _
      rw [binds_planHead]
      refine binds_updAxis.2 ((binds_claimSecond.2 hu).imp fun _ => ⟨fun y hy => ?_, fun y hy => ?_⟩)
      · cases hy
        refine ⟨hh e List.mem_cons_self, fun _ _ _ => ⟨?_, h1, h2, rfl, rfl⟩⟩
        rw [claimSecond_eq]
        exact hr
      · exact hh y (List.mem_cons_of_mem _ (List.mem_cons_of_mem _ hy))
    · exact h
    · refine (binds_updHead_keeps hu fun y => ?_).well
      rfl

theorem binds_decideIfDue {a0 : Int} (h : s.Binds ax wellBound) : (s.decideIfDue ax a0).Binds ax wellBound := by
  unfold State.decideIfDue
  split
  · rename_i hd
    unfold Axis.commitReached at hd
    split at hd
    · rename_i e q he hq
      simp only [Bool.and_eq_true, decide_eq_true_eq, Bool.not_eq_true'] at hd
      obtain ⟨⟨⟨⟨h1, h2⟩, h3⟩, h4⟩, -⟩ := hd
      refine binds_decideFly h h1 fun y hy => ?_
      rw [he] at hy
      cases hy
      exact ⟨h2, h3, h4⟩
    · cases hd
  · exact h

theorem binds_planAndDecide {a0 : Int} {v : Nat} (h : s.Binds ax wellBound) :
    (s.planAndDecide ax a0 e v).Binds ax wellBound :=
  binds_edgeDecelIfDue (binds_decideIfDue (binds_planHead.2 h))

theorem binds_startMoving {target : Int} {d : Dir} (h : s.Binds ax wellBound) :
    (s.startMoving ax target d).Binds ax wellBound := by
  have hu := binds_updHead_well (f := fun e => { e with target := target, dir := d }) h
    fun _ => ⟨rfl, rfl, rfl, rfl, rfl⟩
  unfold State.startMoving
  dsimp only
  repeat' split
  · exact hu
  · exact binds_beginMotion.2 hu
  · exact binds_planAndDecide hu
  · exact binds_planAndDecide (binds_beginMotion.2 hu)

theorem binds_startMove (h : s.Binds ax unbound) : (s.startMove ax e).Binds ax wellBound := by
  have hw := h.well
  unfold State.startMove
  dsimp only
  repeat' split
  · exact binds_notReadyFault hw
  · exact binds_limitFault hw
  · exact binds_axisFault hw
  · exact binds_axisFault hw
  · exact (binds_finishHead_unbound h).well
  · exact binds_startMoving hw

theorem binds_startJog (h : s.Binds ax unbound) : (s.startJog ax e).Binds ax wellBound := by
  have hw := h.well
  unfold State.startJog
  dsimp only
  repeat' split
  · exact binds_notReadyFault hw
  · exact binds_limitFault hw
  · exact (binds_finishHead_unbound h).well
  · exact binds_startMoving hw

theorem binds_beginApproach (h : s.Binds ax wellBound) : (s.beginApproach ax e).Binds ax wellBound := by
  have hp := (binds_setPhase (k := ax) (ph := .approach)).2 h
  unfold State.beginApproach
  dsimp only
  split
  · exact binds_notReadyFault hp
  · exact binds_beginMotion.2 hp

theorem binds_beginSeekBack (h : s.Binds ax wellBound) : (s.beginSeekBack ax e).Binds ax wellBound := by
  have hp : ((s.setPhase ax .seekBack).updRef ax (fun r =>
      { r with switchSeen := ((s.setPhase ax .seekBack).axis ax).referenceActive })).Binds ax wellBound :=
    binds_updRef.2 (binds_setPhase.2 h)
  unfold State.beginSeekBack
  dsimp only
  repeat' split
  · exact binds_notReadyFault hp
  · exact binds_seekBackFail hp
  · exact binds_beginMotion.2 hp

theorem binds_beginCreep (h : s.Binds ax wellBound) : (s.beginCreep ax e).Binds ax wellBound := by
  have hp := (binds_setPhase (k := ax) (ph := .creep)).2 h
  unfold State.beginCreep
  dsimp only
  repeat' split
  · exact binds_refFail hp
  · exact binds_notReadyFault hp
  · exact binds_limitFault hp
  · exact binds_beginMotion.2 hp

theorem binds_beginClear (h : s.Binds ax wellBound) : (s.beginClear ax e).Binds ax wellBound := by
  have hp := (binds_setPhase (k := ax) (ph := .clear)).2 h
  unfold State.beginClear
  dsimp only
  repeat' split
  · exact binds_beginCreep hp
  · exact binds_notReadyFault hp
  · exact binds_limitFault hp
  · exact binds_beginMotion.2 hp

theorem binds_startReference (h : s.Binds ax wellBound) : (s.startReference ax e).Binds ax wellBound := by
  unfold State.startReference
  dsimp only
  repeat' split
  · exact binds_notReadyFault h
  · exact binds_beginClear h
  · exact binds_beginSeekBack h
  · exact binds_beginApproach h

/-- The start of a head clears its mark (R59, R65). -/
theorem binds_startOrder (h : s.Binds ax unboundBehind) : (s.startOrder ax).Binds ax wellBound := by
  cases he : s.head? ax with
  | none =>
      unfold State.startOrder
      rw [he]
      refine (h.imp (Q := unbound) fun hw => ?_).well
      cases hl : (s.axis ax).list with
      | nil => exact fun y hy => absurd hy List.not_mem_nil
      | cons e es => rw [State.head?, hl] at he; cases he
  | some e =>
      have hb : (s.begun ax e).Binds ax unbound :=
        binds_setAxisState.2 (binds_updHead_unbound (f := fun _ => e.started)
          (binds_writeCellState.2 h) fun _ _ => rfl)
      rw [startOrder_eq he]
      unfold State.startKind
      split
      · exact binds_startMove hb
      · exact binds_startMove hb
      · exact binds_startJog hb
      · split
        · exact (binds_finishHead_unbound hb).well
        · exact hb.well
      · exact binds_startReference hb.well

theorem binds_startDue (h : s.Binds ax unboundBehind) : (s.startDue ax).Binds ax wellBound := by
  unfold State.startDue
  split
  · rename_i he
    have := binds_startOrder h
    unfold State.startOrder at this
    rwa [he] at this
  · rename_i e he
    repeat' split
    · exact binds_startOrder h
    · exact binds_startOrder (binds_grantClaim.2 h)
    · have hu := binds_updHead_unbound (f := fun e => { e with status := .waiting, bound := false }) h fun _ _ => rfl
      exact binds_waiting.2 (binds_writeCellState.2 (State.Binds.well (binds_setAxisState.2 hu)))

theorem binds_settleGo : ∀ {m : Nat} {s : State}, s.Binds ax wellBound → (State.settleGo ax m s).Binds ax wellBound
  | 0, _, h => h
  | m + 1, s, h => by
      unfold State.settleGo
      split
      · rename_i hi
        simp only [Bool.and_eq_true, decide_eq_true_eq] at hi
        refine binds_settleGo (binds_startDue (h.imp fun hw => unboundBehind_of_unbound (unbound_of_state hw ?_)))
        rw [hi.1]
        decide
      · exact h

/-- The head that is still to start is started, and then every list is as it may be (3.3). -/
theorem binds_settle (h : s.Binds ax boundToStart) : (s.settle ax).Binds ax wellBound := by
  unfold State.settle State.settleGo
  split
  · rename_i hi
    simp only [Bool.and_eq_true, decide_eq_true_eq] at hi
    refine binds_settleGo (binds_startDue (h.imp fun hw => ?_))
    rw [hi.1] at hw ⊢
    exact unboundBehind_of_boundToStart hw
  · rename_i hi
    refine h.imp fun hw => hw.elim id fun ⟨h1, _⟩ => ?_
    have hl : (s.axis ax).list = [] := by simpa [h1] using hi
    exact wellBound_of_unbound (unbound_of_noEntry hl)

theorem binds_settle_well (h : s.Binds ax wellBound) : (s.settle ax).Binds ax wellBound := binds_settle h.toStart

/-- A successor that starts at the end of the running order is bound no more (R59, R65). -/
theorem binds_startSuccessor {c : EndCode} (h : s.Binds ax wellBound) : (s.startSuccessor ax c).Binds ax wellBound :=
  binds_startOrder (binds_endHead_behind h)

theorem binds_release (h : s.Binds ax wellBound) : (s.release ax).Binds ax wellBound := by
  have hw := (binds_waiting (w := s.waiting.filter (fun w => w.2 != ax))).2 h
  unfold State.release
  dsimp only
  split
  · rename_i hs
    refine binds_startOrder (hw.imp fun hh => unboundBehind_of_unbound (unbound_of_state hh ?_))
    rw [hs]
    decide
  · exact hw

end Sys2Proof.Machine
end

section
/-!
Bound entries stand second (O58; R57 to R60): the sequencer, the requests, the watches and the reports keep the bound
marks of every list as they may be, and so does every command.
-/

open Sys2Proof Sys2Proof.Machine

namespace Sys2Proof.Machine

variable {P Q : AxisState → List Entry → Prop} {s t x : State} {ax k : AxisIx} {st : AxisState} {l es : List Entry}
  {e n : Entry} {r : Race}

/-! ### Replans (R83 to R86) -/

theorem binds_replan {a0 : Int} (h : s.Binds ax wellBound) : (s.replan ax a0).Binds ax wellBound := by
  unfold State.replan
  dsimp only
  split
  · exact h
  · split
    · split
      · split <;> split
        · exact binds_planHead.2 h
        · exact binds_planHead.2 (binds_dropBinding h).well
        · exact binds_planHead.2 h
        · exact binds_planHead.2 (binds_dropBinding h).well
      · exact binds_planAndDecide h
    · exact binds_planAndDecide h

theorem binds_replanRequest (h : s.Binds ax wellBound) : (s.replanRequest ax).Binds ax wellBound := by
  unfold State.replanRequest
  dsimp only
  repeat' split
  · exact binds_updProf.2 h
  · exact binds_replan h
  · exact h

theorem binds_pendingIfDue (h : s.Binds ax wellBound) : (s.pendingIfDue ax).Binds ax wellBound := by
  unfold State.pendingIfDue
  dsimp only
  repeat' split
  · exact binds_replan (binds_updProf.2 h)
  · exact h
  · exact h

/-! ### Reference runs -/

theorem binds_beginOffset (h : s.Binds ax wellBound) : (s.beginOffset ax e).Binds ax boundToStart := by
  have hp := (binds_setPhase (k := ax) (ph := .offset)).2 h
  unfold State.beginOffset
  dsimp only
  repeat' split
  · exact binds_finishHead h
  · exact (binds_refFail hp).toStart
  · exact (binds_notReadyFault hp).toStart
  · exact (binds_limitFault hp).toStart
  · refine State.Binds.toStart (binds_beginMotion.2 (binds_updHead_well hp fun _ => ?_))
    exact ⟨rfl, rfl, rfl, rfl, rfl⟩

theorem binds_beginPhase (h : s.Binds ax wellBound) : ∀ ph, (s.beginPhase ax e ph).Binds ax boundToStart
  | .approach => (binds_beginApproach h).toStart
  | .seekBack => (binds_beginSeekBack h).toStart
  | .clear => (binds_beginClear h).toStart
  | .creep => (binds_beginCreep h).toStart
  | .clearPulse => State.Binds.toStart (binds_beginClearPulse.2 h)
  | .offset => binds_beginOffset h
  | .none | .index | .pause => h.toStart

theorem binds_pauseThen {ph : RefPhase} (h : s.Binds ax wellBound) : (s.pauseThen ax e ph).Binds ax boundToStart := by
  unfold State.pauseThen
  split
  · exact binds_beginPhase h ph
  · exact State.Binds.toStart (binds_updRef.2 h)

theorem binds_refStood (h : s.Binds ax wellBound) : (s.refStood ax e).Binds ax boundToStart := by
  have hs := (binds_stand (k := ax)).2 h
  unfold State.refStood
  dsimp only
  repeat' split
  all_goals first
    | exact binds_pauseThen hs
    | exact hs.toStart

theorem binds_refRampStop (h : s.Binds ax wellBound) : (s.refRampStop ax e).Binds ax boundToStart := by
  unfold State.refRampStop
  dsimp only
  split
  · exact binds_refStood (binds_beginStop.2 (binds_updRef.2 h))
  · exact State.Binds.toStart (binds_beginStop.2 (binds_updRef.2 h))

theorem binds_beginIndex (h : s.Binds ax wellBound) : (s.beginIndex ax).Binds ax wellBound := by
  unfold State.beginIndex
  dsimp only
  split
  · exact binds_refFail (binds_updRef.2 (binds_setPhase.2 h))
  · exact binds_updRef.2 (binds_setPhase.2 h)

theorem binds_refInputOf (h : s.Binds ax wellBound) : (s.refInputOf ax e).Binds ax boundToStart := by
  unfold State.refInputOf
  dsimp only
  split
  · split
    · exact binds_refRampStop h
    · exact h.toStart
  · repeat' split
    · exact h.toStart
    · exact State.Binds.toStart (binds_updRef.2 h)
    · exact binds_refRampStop h
    · exact h.toStart
  · split
    · exact h.toStart
    · exact binds_pauseThen (binds_stand.2 h)
  · repeat' split
    · exact h.toStart
    · exact State.Binds.toStart (binds_refEdge.2 h)
    · exact (binds_beginIndex h).toStart
  · split
    · exact State.Binds.toStart (binds_refEdge.2 h)
    · exact h.toStart
  all_goals exact h.toStart

theorem binds_refInput (h : s.Binds ax wellBound) : (s.refInput ax).Binds ax boundToStart := by
  unfold State.refInput
  dsimp only
  repeat' split
  · exact h.toStart
  · exact binds_refInputOf h
  · exact h.toStart

theorem binds_assignReference (h : s.Binds ax wellBound) : (s.assignReference ax).Binds ax boundToStart := by
  unfold State.assignReference
  dsimp only
  repeat' split
  · exact h.toStart
  · exact h.toStart
  · exact binds_finishHead (binds_addJobs.2 (binds_assignPositions.2 (binds_updRef.2 h)))
  · exact binds_pauseThen (binds_addJobs.2 (binds_assignPositions.2 (binds_updRef.2 h)))

theorem binds_indexSpan (h : s.Binds ax wellBound) : (s.indexSpan ax).Binds ax wellBound := by
  unfold State.indexSpan
  dsimp only
  split
  · exact binds_refFail h
  · exact h

theorem binds_stopReference {c : StopCause} {b : Bool} (h : s.Binds ax unbound) :
    (s.stopReference ax e c b).Binds ax unbound := by
  have hs : ((s.setAxisState ax .stopping c).updAxis ax (fun a => { a with rampEnd := .stopped })).Binds ax unbound :=
    Iff.mpr binds_updAxis_keeps (binds_setAxisState.2 h)
  unfold State.stopReference
  dsimp only
  split
  · split <;> split
    · exact binds_finishHead_unbound (binds_beginStop.2 hs)
    · exact binds_beginStop.2 hs
    · exact binds_finishHead_unbound (binds_beginStop.2 hs)
    · exact binds_beginStop.2 hs
  · exact binds_finishHead_unbound h

/-! ### Arrival (R53 to R55, R59, R62) -/

theorem binds_holdStood (h : s.Binds ax wellBound) (hs : (s.axis ax).state = .holding) :
    (s.holdStood ax e).Binds ax boundToStart := by
  have hu : s.Binds ax unbound := h.imp fun hw => unbound_of_state hw (by rw [hs]; decide)
  unfold State.holdStood
  split
  · exact binds_finishHead h
  · exact State.Binds.toStart (State.Binds.well (binds_setAxisState.2 ((binds_stand.2 hu).imp id)))

theorem binds_arrive (h : s.Binds ax wellBound) : (s.arrive ax).Binds ax boundToStart := by
  unfold State.arrive
  dsimp only
  split
  · repeat' split
    · exact h.toStart
    · exact (binds_startSuccessor h).toStart
    · exact binds_finishHead h
    · exact (binds_startSuccessor h).toStart
    · exact binds_finishHead h
    · exact binds_finishHead h
    · exact binds_finishHead h
    · exact binds_refStood h
    · exact h.toStart
  · rename_i hs
    split
    · exact binds_holdStood h hs
    · exact h.toStart
  · split
    · exact (binds_becomeFaulted h).none.well.toStart
    · exact binds_finishHead h
  all_goals exact h.toStart

theorem binds_arriveIfDue (h : s.Binds ax wellBound) : (s.arriveIfDue ax).Binds ax wellBound := by
  unfold State.arriveIfDue
  split
  · exact binds_settle (binds_arrive h)
  · exact h

theorem binds_progress (h : s.Binds ax wellBound) : (s.progress ax).Binds ax wellBound :=
  binds_indexSpan (binds_arriveIfDue (binds_edgeDecelIfDue (binds_decideIfDue (binds_pendingIfDue h))))

/-! ### Requests (R61 to R65, R82, R107) -/

theorem binds_rampToEnd {c : StopCause} {code : EndCode} {q : Rates} (h : s.Binds ax unbound) :
    (s.rampToEnd ax e c code q).Binds ax unbound := by
  have hs : (s.updAxis ax (fun a => { a with state := .stopping, stopCause := c, rampEnd := code })).Binds ax unbound :=
    binds_updAxis.2 (h.imp id)
  unfold State.rampToEnd
  dsimp only
  split
  · exact binds_finishHead_unbound (binds_beginStop.2 hs)
  · exact binds_beginStop.2 hs

theorem binds_endAtOnce {code : EndCode} {b : Bool} (h : s.Binds ax wellBound) :
    (s.endAtOnce ax code b).Binds ax wellBound := by
  unfold State.endAtOnce
  dsimp only
  split
  · exact binds_settle_well (binds_flushAll (binds_finishHead h)).none.well
  · exact binds_settle (binds_finishHead h)

/-- A carried request leaves the bound marks as they may be. -/
def Carried.Binds (ax : AxisIx) : Carried → Prop
  | .done t => t.Binds ax wellBound
  | .refused _ _ => True

theorem Carried.Binds.stateOr {c : Carried} (hc : c.Binds ax) (h : s.Binds ax wellBound) :
    (c.stateOr s).Binds ax wellBound := by
  cases c
  · exact hc
  · exact h

/-- A run of a REFERENCE or a DWELL has no bound successor (R58). -/
theorem State.Binds.single (h : s.Binds ax wellBound) (he : (s.axis ax).list.head? = some e)
    (hk : e.kind.positional = true → e.opts.fly = false) : s.Binds ax unbound :=
  h.imp fun hw => unbound_of_wellBound hw fun _ y hy hp => by
    cases (show some e = some y from he.symm.trans hy)
    exact hk hp

theorem binds_stopAxis {b : Bool} (h : s.Binds ax wellBound) : (s.stopAxis ax b).Binds ax := by
  have hr {y : State} {e : Entry} {q : Rates} (hy : y.Binds ax wellBound) :
      (((y.dropBinding ax).rampToEnd ax e .request .stopped q).settle ax).Binds ax wellBound :=
    binds_settle_well (binds_rampToEnd (binds_dropBinding hy)).well
  have hf {y : State} (hy : y.Binds ax wellBound) : (y.flushIf ax b).Binds ax wellBound := by
    unfold State.flushIf
    split
    · exact (binds_flushTail hy).well
    · exact hy
  unfold State.stopAxis
  dsimp only
  split
  · exact binds_endAtOnce h
  · exact binds_endAtOnce h
  · rename_i e _ he
    split
    · exact binds_endAtOnce h
    · rename_i hk
      exact binds_settle_well (binds_stopReference (binds_flushIf (h.single he fun hp => by rw [hk] at hp; cases hp))).well
    all_goals exact hr (hf h)
  · exact hr (hf h)
  · split
    · exact h
    · trivial
  · split
    · exact (binds_flushTail h).well
    · trivial
  all_goals trivial

theorem binds_hold (h : s.Binds ax wellBound) : (s.hold ax).Binds ax := by
  unfold State.hold
  dsimp only
  split
  · rename_i e _ he
    split
    · trivial
    · rename_i hk
      exact State.Binds.well (binds_setAxisState.2
        ((h.single he fun hp => by rw [hk] at hp; cases hp).imp id))
    all_goals exact binds_arriveIfDue (binds_beginStop.2 (State.Binds.well
      (binds_setAxisState.2 ((binds_dropBinding h).imp id))))
  · exact h
  · exact h
  all_goals trivial

theorem binds_resumeHeld (h : s.Binds ax unbound) : (s.resumeHeld ax e).Binds ax wellBound := by
  have hs : (s.setAxisState ax .running .none).Binds ax wellBound :=
    State.Binds.well (binds_setAxisState.2 (h.imp id))
  unfold State.resumeHeld
  dsimp only
  repeat' split
  · exact binds_notReadyFault hs
  · exact binds_limitFault hs
  · exact binds_planAndDecide (binds_beginMotion.2 hs)

theorem binds_resume (h : s.Binds ax wellBound) : (s.resume ax).Binds ax := by
  have hu (hs : (s.axis ax).state ≠ .running) : s.Binds ax unbound := h.imp fun hw => unbound_of_state hw hs
  have hd (hs : (s.axis ax).state ≠ .running) :
      (s.updHead ax (fun e => { e with decided := false })).Binds ax unbound := by
    refine binds_updHead_keeps (hu hs) fun y => ?_
    rfl
  unfold State.resume
  dsimp only
  split
  · rename_i hs _
    refine binds_arriveIfDue (binds_replan (State.Binds.well (binds_setAxisState.2 ((hd ?_).imp id))))
    rw [hs]
    decide
  · rename_i hs _
    have hs' : (s.axis ax).state ≠ .running := by rw [hs]; decide
    split
    · exact State.Binds.well (binds_setAxisState.2 ((hu hs').imp id))
    · exact State.Binds.well (binds_setAxisState.2 ((hu hs').imp id))
    all_goals exact binds_resumeHeld (hd hs')
  all_goals trivial

theorem binds_advanceRamp (h : s.Binds ax unbound) : (s.advanceRamp ax e).Binds ax wellBound := by
  unfold State.advanceRamp
  dsimp only
  split
  · exact binds_endAtOnce h.well
  · exact binds_settle_well (binds_rampToEnd h).well

theorem binds_advanceFly (h : s.Binds ax wellBound) (hl : (s.axis ax).list = e :: es) :
    (s.advanceFly ax e es).Binds ax wellBound := by
  unfold State.advanceFly
  dsimp only
  split
  · exact binds_settle_well (binds_startSuccessor h)
  · rename_i hb
    have hu : s.Binds ax unbound := h.imp fun hw => unbound_of_second hw fun n hn => by
      rw [hl] at hn
      rw [show es.head? = some n from hn] at hb
      simpa using hb
    have hh {f : FlyOutcome} {y : State} (hy : y.Binds ax unbound) :
        (y.updHead ax (fun e => { e with fly := f, decided := true })).Binds ax unbound := by
      refine binds_updHead_keeps hy fun z => ?_
      rfl
    repeat' split
    · exact binds_advanceRamp hu
    · exact binds_settle_well (binds_startSuccessor (hh (binds_claimSecond.2 hu)).well)
    · exact binds_advanceRamp (hh hu)
    · exact binds_advanceRamp hu

theorem binds_advanceMove (h : s.Binds ax wellBound) (hl : (s.axis ax).list = e :: es) :
    Carried.Binds ax (match e.kind with
      | .reference => .notApplicable 4
      | .dwell => .done (s.endAtOnce ax .advanced false)
      | .moveAbs | .moveRel | .jog =>
          .done (if e.opts.fly then s.advanceFly ax e es else s.advanceRamp ax e)) := by
  have hm : (if e.opts.fly then s.advanceFly ax e es else s.advanceRamp ax e).Binds ax wellBound := by
    split
    · exact binds_advanceFly h hl
    · rename_i hf
      exact binds_advanceRamp (h.single (by rw [hl]; rfl) fun _ => by simpa using hf)
  split
  · trivial
  · exact binds_endAtOnce h
  all_goals exact hm

theorem binds_advance (h : s.Binds ax wellBound) : (s.advance ax).Binds ax := by
  unfold State.advance
  dsimp only
  split
  · exact binds_advanceMove h (by assumption)
  · exact binds_advanceMove h (by assumption)
  · exact binds_advanceMove h (by assumption)
  all_goals trivial

theorem binds_replanIfRunning (h : s.Binds ax wellBound) : (s.replanIfRunning ax).Binds ax wellBound := by
  unfold State.replanIfRunning
  split
  · exact binds_arriveIfDue (binds_replanRequest h)
  · exact h

theorem binds_setOverride {p : Nat} (h : s.Binds ax wellBound) : (s.setOverride ax p).Binds ax wellBound :=
  binds_replanIfRunning (binds_updProf.2 h)

theorem binds_newSpeed {v : Nat} (h : s.Binds ax wellBound) : (s.newSpeed ax v).Binds ax wellBound := by
  refine binds_replanIfRunning (binds_updHead_well h fun _ => ?_)
  exact ⟨rfl, rfl, rfl, rfl, rfl⟩

theorem binds_setPosition {c f : Word} (h : s.Binds ax wellBound) : (s.setPosition ax c f).Binds ax := by
  unfold State.setPosition
  split
  · exact binds_addJobs.2 (binds_assignPositions.2 h)
  · exact binds_addJobs.2 (binds_assignPositions.2 h)
  all_goals trivial

/-! ### Module stops and silence actions (R70, R171) -/

theorem binds_moduleStopMotion {c : StopCause} {b : Bool} {q : Rates} (hu : s.Binds ax unbound) :
    State.Binds (match e.kind with
      | .dwell => s.finishHead ax .stopped
      | .reference => s.stopReference ax e c b
      | .moveAbs | .moveRel | .jog =>
          if b then s.finishHead ax .stopped else s.rampToEnd ax e c .stopped q) ax wellBound := by
  split
  · exact (binds_finishHead_unbound hu).well
  · exact (binds_stopReference hu).well
  all_goals
    split
    · exact (binds_finishHead_unbound hu).well
    · exact (binds_rampToEnd hu).well

theorem binds_moduleStopAxis {c : StopCause} {b : Bool} (h : s.Binds ax wellBound) :
    (s.moduleStopAxis ax c b).Binds ax wellBound := by
  have hu := binds_flushTail h
  unfold State.moduleStopAxis
  dsimp only
  split
  · exact binds_endAtOnce h
  · exact (binds_finishHead_unbound hu).well
  · exact binds_moduleStopMotion hu
  · exact binds_moduleStopMotion hu
  · split
    · exact h
    · split
      · exact (binds_finishHead_unbound hu).well
      · exact hu.well
  all_goals exact h

theorem binds_silenceContinue (h : s.Binds ax wellBound) : (s.silenceContinue ax).Binds ax wellBound := by
  have hu := (binds_flushTail h).well
  unfold State.silenceContinue
  dsimp only
  split
  · exact binds_endAtOnce h
  · split
    · exact binds_arriveIfDue (binds_replan hu)
    · exact hu
  · exact hu
  · exact hu
  · split
    · exact h
    · exact hu
  all_goals exact h

theorem binds_silenceAxis (h : s.Binds ax wellBound) : (s.silenceAxis ax).Binds ax wellBound := by
  unfold State.silenceAxis
  split
  · exact binds_silenceContinue h
  · split
    · exact binds_silenceContinue h
    · exact binds_moduleStopAxis h
  · exact binds_moduleStopAxis h

/-! ### Every axis -/

/-- The bound marks of every axis are those it may have (R57 to R60). -/
def State.bindingsOk (s : State) : Prop := ∀ ax, (s.axis ax).bindingOk

theorem bindingsOk_of (h : s.Binds ax wellBound) : s.bindingsOk := binds_wellBound.1 h

theorem State.bindingsOk.binds (h : s.bindingsOk) (ax : AxisIx) : s.Binds ax wellBound := binds_wellBound.2 h

theorem bindingsOk_axes (h : t.axes = s.axes) (hs : s.bindingsOk) : t.bindingsOk :=
  bindingsOk_of (Iff.mpr (binds_axes h) (hs.binds 0))

theorem bindingsOk_updAxis {f : Axis → Axis} (hs : s.bindingsOk) (h1 : ∀ a, (f a).state = a.state := by intro a; rfl)
    (h2 : ∀ a, (f a).list = a.list := by intro a; rfl) : (s.updAxis k f).bindingsOk :=
  bindingsOk_of (Iff.mpr (binds_updAxis_keeps h1 h2) (hs.binds 0))

theorem bindingsOk_foldl {α : Type} {f : State → α → State} (hf : ∀ (a : α) {x : State}, x.bindingsOk → (f x a).bindingsOk)
    (l : List α) (hs : s.bindingsOk) : (l.foldl f s).bindingsOk :=
  List.foldlRecOn (motive := State.bindingsOk) l f hs fun _ h a _ => hf a h

/-! ### Gates and watches -/

theorem bindingsOk_arbitrate {g : Fin 16} (h : s.bindingsOk) : (s.arbitrate g).bindingsOk := by
  have hr (ax : AxisIx) {x : State} (hx : x.bindingsOk) : (x.release ax).bindingsOk :=
    bindingsOk_of (binds_release (hx.binds ax))
  have hs (ax : AxisIx) {x : State} (hx : x.bindingsOk) : (x.settle ax).bindingsOk :=
    bindingsOk_of (binds_settle_well (hx.binds ax))
  unfold State.arbitrate
  dsimp only
  refine bindingsOk_foldl hs _ ?_
  repeat' split
  · refine hr _ (bindingsOk_axes (s := List.foldl _ s _) rfl (bindingsOk_foldl hr _ h))
  · exact bindingsOk_foldl hr _ h
  · exact bindingsOk_foldl hr _ h

theorem bindingsOk_openGate {g : Fin 16} (h : s.bindingsOk) : (s.openGate g).bindingsOk := by
  unfold State.openGate
  split
  · exact h
  · exact bindingsOk_arbitrate (bindingsOk_axes rfl h)

theorem bindingsOk_perform {act : Action} (h : s.bindingsOk) : (s.perform act).bindingsOk := by
  cases act with
  | openGate g => exact bindingsOk_openGate h
  | advance ax => exact bindingsOk_of ((binds_advance (h.binds ax)).stateOr (h.binds ax))
  | hold ax => exact bindingsOk_of ((binds_hold (h.binds ax)).stateOr (h.binds ax))
  | stop ax => exact bindingsOk_of ((binds_stopAxis (h.binds ax)).stateOr (h.binds ax))
  | setSpeed ax v => exact bindingsOk_of (binds_newSpeed (h.binds ax))
  | pulseOutput o w => exact h
  | latchOnly => exact h

theorem bindingsOk_performed {v : Watch} (h : s.bindingsOk) : (s.performed v).bindingsOk := by
  unfold State.performed
  split
  · exact bindingsOk_perform (bindingsOk_axes rfl h)
  · exact bindingsOk_axes rfl h

theorem bindingsOk_fire {v : Watch} (h : s.bindingsOk) : (s.fire v).bindingsOk := by
  have hp := (bindingsOk_performed (v := s.fired v) h).binds 0
  rw [fire_eq]
  split
  · exact bindingsOk_of (binds_endWatch.2 hp)
  · exact bindingsOk_of (binds_updWatch.2 hp)

theorem bindingsOk_evaluate {c : Nat} {v : Sample} (h : s.bindingsOk) : (s.evaluate c v).bindingsOk := by
  unfold State.evaluate
  repeat' split
  · exact h
  · exact bindingsOk_fire h
  · exact h
  · exact h
  · exact h

theorem bindingsOk_cancelAll (h : s.bindingsOk) : s.cancelAll.bindingsOk :=
  bindingsOk_foldl (fun _ _ hx => bindingsOk_of (binds_endWatch.2 (hx.binds 0))) _ h

/-! ### What follows an event (R97, R122) -/

theorem binds_reportCond {c : Cond} (h : s.Binds ax wellBound) : (s.reportCond ax c).Binds ax wellBound := by
  cases c
  · unfold State.reportCond
    dsimp only
    split
    · exact binds_seekBackFail h
    · exact binds_limitFault h
  · exact binds_notReadyFault h
  · exact binds_axisFault h
  · exact binds_axisFault h

theorem binds_checkCond {c : Cond} (h : s.Binds ax wellBound) : (s.checkCond ax c).Binds ax wellBound := by
  unfold State.checkCond
  dsimp only
  split
  · exact binds_reportCond (Iff.mpr binds_updAxis_keeps h)
  · exact Iff.mpr binds_updAxis_keeps h

theorem bindingsOk_runJob (h : s.bindingsOk) : ∀ j : Job, (s.runJob j).bindingsOk
  | .evalWatch _ _ _ => bindingsOk_evaluate h
  | .progress ax => bindingsOk_of (binds_progress (h.binds ax))
  | .check ax _ => bindingsOk_of (binds_checkCond (h.binds ax))
  | .assign ax => bindingsOk_of (binds_settle (binds_assignReference (h.binds ax)))

theorem bindingsOk_enter (h : s.bindingsOk) (m : ModState) : (s.enter m).bindingsOk := by
  cases m <;> exact h

theorem bindingsOk_finish (h : s.bindingsOk) : (s.finish r).bindingsOk := by
  unfold State.finish State.stopIfAtRest
  have hd := drain_induct State.bindingsOk (fun y i j hy _ =>
    bindingsOk_runJob (s := { y with agenda := y.agenda.eraseIdx i }) hy j) Config.agendaBound r.picks
    (s.assignsDue r.settle) h
  split
  · exact bindingsOk_enter hd _
  · exact hd

theorem bindingsOk_close (h : t.bindingsOk) : (s.close r t).bindingsOk := by
  refine close_induct State.bindingsOk (bindingsOk_finish h) fun x n hx _ => ?_
  rw [detach_fixed]
  exact hx

/-! ### Control orders and visits -/

theorem bindingsOk_carryOut {q : ControlKind} {sc : Scope} {p : Params} (h : s.bindingsOk)
    (ht : s.carryOut q sc p = .done t) : t.bindingsOk := by
  have hd {c : Carried} {ax : AxisIx} (hc : c.Binds ax) (he : c = .done t) : t.bindingsOk := by
    rw [he] at hc
    exact bindingsOk_of hc
  unfold State.carryOut at ht
  split at ht
  · exact hd (binds_stopAxis (h.binds _)) ht
  · exact hd (binds_hold (h.binds _)) ht
  · exact hd (binds_resume (h.binds _)) ht
  · exact hd (binds_advance (h.binds _)) ht
  · cases ht
    exact bindingsOk_of (binds_setOverride (h.binds _))
  · exact hd (binds_setPosition (h.binds _)) ht
  · rename_i ax
    unfold State.clearAxisFault at ht
    dsimp only at ht
    repeat' split at ht
    · cases ht
    · cases ht
    · cases ht
    · rename_i hs
      cases ht
      have hu : (s.removeFault (.axis ax)).Binds ax unbound :=
        State.Binds.imp (P := wellBound) (State.bindingsOk.binds (s := s.removeFault (.axis ax)) h ax) fun hw =>
          unbound_of_state hw (by rw [show ((s.removeFault (.axis ax)).axis ax).state = .faulted from hs]; decide)
      exact bindingsOk_of (State.Binds.well (binds_setAxisState.2 (hu.imp id)))
    · cases ht
      exact h
  · cases ht
    exact bindingsOk_openGate h
  · cases ht
    exact h
  · unfold State.cancelWatch at ht
    split at ht
    · cases ht
      exact bindingsOk_of (binds_endWatch.2 (h.binds 0))
    · cases ht
  · unfold State.clearModuleFault at ht
    dsimp only at ht
    repeat' split at ht
    · cases ht
    · cases ht
      exact bindingsOk_enter (s := s.removeFault .module) h .running
    · cases ht
      exact h
  all_goals cases ht

/-- An admitted order is not bound (R37, R44). -/
theorem bindingsOk_admitMotion {m : Nat} {k : MotionKind} {c : CellWords} (h : s.bindingsOk) :
    (s.admitMotion m k ax c).bindingsOk := by
  have ha : (s.admitCell m admittedByte).Binds ax wellBound :=
    (bindingsOk_axes (by rw [admitCell_eq]) h).binds ax
  refine bindingsOk_of (binds_settle_well (binds_updAxis.2 (ha.imp fun hw => ?_)))
  change wellBound ((s.admitCell m admittedByte).axis ax).state
    (((s.admitCell m admittedByte).axis ax).list ++ [entryOf m k c])
  match hl : ((s.admitCell m admittedByte).axis ax).list with
  | [] => exact wellBound_of_unbound fun y hy => by rw [List.mem_singleton.1 hy]; rfl
  | [e] =>
      rw [hl] at hw
      refine wellBound_of_unbound fun y hy => ?_
      rcases List.mem_cons.1 hy with rfl | hy
      · exact (hw.1 y rfl).1
      · rw [List.mem_singleton.1 hy]; rfl
  | e :: n :: more =>
      rw [hl] at hw
      refine ⟨hw.1, fun y hy => ?_⟩
      rcases List.mem_append.1 hy with hy | hy
      · exact hw.2 y hy
      · rw [List.mem_singleton.1 hy]; rfl

theorem bindingsOk_applyVerdict {m : Nat} {w : Walk} {c : CellWords} {mk : Quad Bool} (h : s.bindingsOk) :
    (s.applyVerdict w m c (s.verdict mk c)).bindingsOk := by
  have hw {y : State} {v : Option Walk} (hy : y.bindingsOk) : ({ y with walk := v } : State).bindingsOk := hy
  rcases verdict_cases s mk c with ⟨code, d, a, hv⟩ | ⟨k, ax, hv, -⟩ | ⟨sc, hv, -⟩ | ⟨q, sc, s', hv, hd⟩ <;> rw [hv] <;>
    refine hw ?_
  · exact bindingsOk_axes (by rw [refuseCell_eq]) h
  · exact bindingsOk_admitMotion h
  · exact bindingsOk_axes (by rw [armed_eq, admitCell_eq]) h
  · exact bindingsOk_axes (by rw [endCell_eq]; rfl) (bindingsOk_carryOut h hd)

theorem bindingsOk_visit {w : Walk} (h : s.bindingsOk) : (s.visit w).bindingsOk := by
  unfold State.visit
  split
  · exact h
  · exact bindingsOk_applyVerdict h

/-! ### Every axis changed at once -/

/-- An axis that was at rest has nothing bound, and a new setup leaves its list (R48, R182). -/
theorem bindingOk_startUnder {a : Axis} {new : AxisSetup} (h : a.bindingOk) : (a.startUnder new).bindingOk := by
  have hl := startUnder_list a new
  by_cases hr : a.atRest = true
  · have hu : unbound a.state a.list := by
      refine unbound_of_state h fun hs => ?_
      rw [Axis.atRest, hs] at hr
      cases hr
    have : wellBound (a.startUnder new).state (a.startUnder new).list := by
      rw [hl]
      exact wellBound_of_unbound hu
    exact this
  · have he : a.startUnder new = a := by
      unfold Axis.startUnder
      rw [if_pos (by simpa using hr)]
    rwa [he]

/-- A millisecond leaves what the bound marks speak of. -/
theorem bindingOk_tick {a : Axis} (h : a.bindingOk) : a.tick.bindingOk := by
  have hk (e : Entry) (b : Bool) : (e.tick b).bound = e.bound ∧ (e.tick b).kind = e.kind ∧ (e.tick b).opts = e.opts ∧
      (e.tick b).decided = e.decided ∧ (e.tick b).fly = e.fly := by
    unfold Entry.tick
    split <;> exact ⟨rfl, rfl, rfl, rfl, rfl⟩
  have hw : wellBound a.state a.list := h
  change wellBound a.tick.state a.tick.list
  unfold Axis.tick
  dsimp only
  split
  · rename_i hl
    rwa [hl] at hw
  · rename_i e es hl
    obtain ⟨h1, h2, h3, h4, h5⟩ := hk e (a.state = .running)
    rw [hl] at hw
    exact wellBound_head hw h1 h2 h3 h4 h5

theorem bindingsOk_mapAxes {f : Axis → Axis} (hs : s.bindingsOk) (hf : ∀ a : Axis, a.bindingOk → (f a).bindingOk)
    (h : t.axes = s.axes.map f) : t.bindingsOk := fun ax => by
  rw [State.axis, h, Quad.get_map]
  exact hf _ (hs ax)

theorem bindingsOk_resetWith (x : Extent) (rb : Readback) : (s.resetWith x rb).bindingsOk := fun ax => by
  rw [show (s.resetWith x rb).axis ax = (s.axis ax).afterReset from Quad.get_map _ _ _]
  have : wellBound (s.axis ax).afterReset.state (s.axis ax).afterReset.list :=
    wellBound_of_unbound (unbound_of_noEntry (l := []) rfl)
  exact this

theorem bindingsOk_passSetup (h : s.bindingsOk) : s.passSetup.bindingsOk := fun ax => by
  have : s.passSetup.axis ax = (s.axis ax).startUnder (setupOf (s.axisField ax)) := by
    fin_cases ax <;> rfl
  rw [this]
  exact bindingOk_startUnder (h ax)

/-! ### The register window, the millisecond, inputs and pulses -/

theorem bindingsOk_noteControl (h : s.bindingsOk) (code arg : Byte) (o : CtlOutcome) :
    (s.noteControl code arg o).bindingsOk := by
  refine bindingsOk_axes ?_ h
  unfold State.noteControl
  rw [activity_eq]

theorem bindingsOk_takeStart (h : s.bindingsOk) (arg : Byte) : (s.takeStart arg).bindingsOk := by
  have hn := bindingsOk_noteControl h codeStart arg (ctlOutcome (s.modState == .stopped))
  unfold State.takeStart
  dsimp only
  split
  · exact bindingsOk_mapAxes hn (f := fun a => { a with prof := { a.prof with override := 100 } }) (fun _ h => h) rfl
  · exact hn

theorem bindingsOk_stopBlock (b : StopBlock) (h : s.bindingsOk) : (s.stopBlock b).bindingsOk := by
  cases b with
  | watchUnit => exact bindingsOk_axes (s := s.cancelAll) rfl (bindingsOk_cancelAll h)
  | sequencer ax => exact bindingsOk_of (binds_moduleStopAxis (h.binds ax))

theorem bindingsOk_takeStop (h : s.bindingsOk) (arg : Byte) : (s.takeStop arg r).bindingsOk := by
  have hn := bindingsOk_noteControl h codeStop arg (ctlOutcome (s.modState == .running || s.modState == .silent))
  unfold State.takeStop
  dsimp only
  split
  · exact bindingsOk_close (bindingsOk_foldl (fun b _ hx => bindingsOk_stopBlock b hx) _
      (bindingsOk_enter hn .stopping))
  · exact hn

theorem bindingsOk_takeAck (h : s.bindingsOk) (named : Byte) : (s.takeAck named).bindingsOk := by
  have hn := bindingsOk_noteControl h codeAck named (ctlOutcome s.modState.takesAck)
  unfold State.takeAck
  dsimp only
  split <;> exact hn

theorem bindingsOk_controlWrite (h : s.bindingsOk) (code arg : Byte) : (s.controlWrite code arg).bindingsOk := by
  unfold State.controlWrite
  split
  · exact bindingsOk_takeStart h _
  split
  · exact bindingsOk_takeStop h _
  split
  · exact bindingsOk_resetWith _ _
  split
  · exact bindingsOk_takeAck h _
  split
  · exact bindingsOk_noteControl h _ _ _
  · exact bindingsOk_noteControl h _ _ _

theorem bindingsOk_recordFault {sc : Scope} {c d m : Nat} (h : s.bindingsOk) : (s.recordFault sc c d m).bindingsOk :=
  bindingsOk_of (binds_recordFault.2 (h.binds 0))

theorem bindingsOk_takePost (h : s.bindingsOk) (v : Word) : (s.takePost v).bindingsOk := by
  have ha {y : State} (hy : y.bindingsOk) : y.activity.bindingsOk := by
    rw [activity_eq]
    exact hy
  unfold State.takePost
  dsimp only
  repeat' split
  · exact h
  · exact ha h
  · exact ha (bindingsOk_recordFault h)

theorem bindingsOk_goSilent (h : s.bindingsOk) (l : List AxisIx) : (s.goSilent l).bindingsOk :=
  bindingsOk_foldl (fun ax _ hx => bindingsOk_of (binds_silenceAxis (hx.binds ax))) _
    (bindingsOk_enter (s := { s.recordFault .module faultSupervision 0 noIndex with supTimer := none })
      (bindingsOk_recordFault h) .silent)

theorem bindingsOk_pulse (h : s.bindingsOk) : (s.pulse ax).bindingsOk := by
  rw [pulse_eq, pulsed_eq]
  have ha : ((s.addJobs (s.pulseJobs ax)).updAxis ax (fun a =>
      { a with prof := (s.axis ax).pulsed.prof, commanded := wordOfInt (s.axis ax).nextCommanded
               followErr := (s.axis ax).pulsed.followErr })).bindingsOk :=
    bindingsOk_updAxis (s := s.addJobs (s.pulseJobs ax)) h
  exact ha

theorem bindingsOk_encoder (h : s.bindingsOk) (a b : Bool) : (s.encoder ax a b).bindingsOk := by
  have hl : (s.updAxis ax (fun x => { x with encA := a, encB := b })).bindingsOk := bindingsOk_updAxis h
  unfold State.encoder
  dsimp only
  split
  · exact hl
  · refine bindingsOk_axes rfl (bindingsOk_foldl (fun d x hx => ?_) _ hl)
    have hm : (x.updAxis ax (fun a => { a with feedback := (x.axis ax).feedback + wordOfInt d })).bindingsOk :=
      bindingsOk_updAxis hx
    exact bindingsOk_axes rfl (bindingsOk_updAxis (s := State.report _ _ _)
      (f := fun a => { a with followErr := followErrorOf a.setup a.commanded a.feedback }) hm)

theorem bindingsOk_setInputs (h : s.bindingsOk) (i : Inputs) : (s.setInputs ax i r).bindingsOk := by
  have hi : (s.updAxis ax (fun a => { a with inputs := i })).bindingsOk := bindingsOk_updAxis h
  unfold State.setInputs
  split
  · exact h
  · exact bindingsOk_close (bindingsOk_of (binds_addChecks.2 (binds_settle (binds_refInput (hi.binds ax)))))

theorem bindingsOk_prepareMemory (h : s.bindingsOk) : s.prepareMemory.bindingsOk := by
  rw [prepareMemory_fields]
  exact h

theorem bindingsOk_endClearPulse (h : s.bindingsOk) : (s.endClearPulse ax).bindingsOk := by
  have hu : (s.updRef ax (fun r => { r with clearTimer := none, clearOut := false })).bindingsOk :=
    bindingsOk_updAxis h
  unfold State.endClearPulse
  dsimp only
  repeat' split
  · exact bindingsOk_of (binds_settle (binds_beginOffset (hu.binds ax)))
  · exact hu
  · exact hu

/-! ### Every command -/

/-- Every command leaves the bound marks as they may be. -/
theorem bindingsOk_exec (c : Instr) (hs : s.bindingsOk) (h : exec c s = .next t) : t.bindingsOk := by
  cases c with
  | powerOn | rackResetLine | reset => cases h; exact bindingsOk_resetWith _ _
  | selfTestPass =>
      cases h
      split
      · exact bindingsOk_enter (bindingsOk_prepareMemory hs) .stopped
      · exact hs
  | selfTestFail =>
      cases h
      split
      · exact bindingsOk_enter (bindingsOk_recordFault (bindingsOk_prepareMemory hs)) .halted
      · exact hs
  | postWrite v => cases h; exact bindingsOk_takePost hs v
  | collect =>
      cases h
      refine bindingsOk_axes ?_ hs
      unfold State.takeCollect State.detach
      rw [activity_eq]
  | start arg => cases h; exact bindingsOk_takeStart hs arg
  | stop arg r => cases h; exact bindingsOk_takeStop hs arg
  | ack named => cases h; exact bindingsOk_takeAck hs named
  | kick arg => cases h; exact bindingsOk_noteControl hs _ _ _
  | unknownCommand code arg => cases h; exact bindingsOk_controlWrite hs _ _
  | ignoredRegisterWrite o v =>
      cases h
      repeat' split
      · exact bindingsOk_takePost hs v
      · exact bindingsOk_controlWrite hs _ _
      · exact hs
  | setupCheckPass r =>
      cases h
      split
      · refine bindingsOk_close (bindingsOk_foldl (fun ax x hx => ?_) _ (bindingsOk_passSetup hs))
        exact bindingsOk_axes rfl hx
      · exact hs
  | setupCheckFail =>
      cases h
      repeat' split
      · exact bindingsOk_enter (bindingsOk_axes rfl (bindingsOk_recordFault hs)) .stopped
      · exact hs
      · exact hs
  | walkBegin =>
      cases h
      unfold State.beginWalk
      split <;> exact hs
  | cellVisit r =>
      cases h
      split
      · exact bindingsOk_close (bindingsOk_visit hs)
      · exact hs
  | outputPulse ax r =>
      cases h
      split
      · exact bindingsOk_close (bindingsOk_pulse hs)
      · exact hs
  | moduleStopComplete =>
      cases h
      unfold State.stopIfAtRest
      split
      · exact bindingsOk_enter hs _
      · exact hs
  | encoderEdge ax a b r => cases h; exact bindingsOk_close (bindingsOk_encoder hs a b)
  | limitInputChange | referenceSwitchChange | indexInputChange | driveReadyChange | driveAlarmChange =>
      cases h; exact bindingsOk_setInputs hs _
  | eventInputChange i l r =>
      cases h
      split
      · exact hs
      · exact bindingsOk_close (bindingsOk_axes rfl hs)
  | moduleClockTick r =>
      cases h
      split
      · exact hs
      · refine bindingsOk_close ?_
        unfold State.tick
        split
        · exact hs
        · exact bindingsOk_mapAxes hs (fun _ => bindingOk_tick) rfl
  | imageRefresh =>
      cases h
      unfold State.refresh
      split
      · exact hs
      · rw [writeWords_eq]
        exact hs
  | elapsedReached n r =>
      cases h
      split
      · exact bindingsOk_close (bindingsOk_fire hs)
      · exact hs
  | deadlineExpiry ax r =>
      cases h
      repeat' split
      · exact bindingsOk_close (bindingsOk_of (binds_axisFault (hs.binds ax)))
      · exact hs
      · exact hs
  | dwellEnd ax r =>
      cases h
      split
      · exact bindingsOk_close (bindingsOk_of (binds_settle (binds_finishHead (hs.binds ax))))
      · exact hs
  | pauseExpiry ax r =>
      cases h
      repeat' split
      · exact bindingsOk_close (bindingsOk_of (binds_settle (binds_beginPhase (hs.binds ax) _)))
      · exact hs
      · exact hs
  | clearPulseExpiry ax r =>
      cases h
      split
      · exact bindingsOk_close (bindingsOk_endClearPulse hs)
      · exact hs
  | triggerPulseExpiry o =>
      cases h
      split <;> exact hs
  | supervisionExpiry r =>
      cases h
      split
      · exact bindingsOk_close (bindingsOk_goSilent hs _)
      · exact hs

theorem bindingsOk_busWrite {b : BusWrite} (hs : s.bindingsOk) (h : busWrite b s = .next t) : t.bindingsOk := by
  unfold busWrite at h
  split at h
  · cases h
    refine bindingsOk_axes (s := s) ?_ hs
    change ((s.prepareBefore b).served b).axes = s.axes
    rw [served_eq, prepareBefore_eq]
  · cases h

/-- Settles O58: a list is not as it may be only between an end and the start of the next head, and each operation
that ends a head starts the next one before it is done. -/
theorem boundEntriesStandSecond : Obligations.BoundEntriesStandSecond := by
  unfold Obligations.BoundEntriesStandSecond
  intro s t hs h
  have hs' : s.bindingsOk := hs
  unfold step at h
  split at h
  · refine bindingsOk_exec _ ?_ h
    exact hs'
  · split at h
    · refine bindingsOk_busWrite ?_ h
      exact hs'
    · cases h; exact hs'

end Sys2Proof.Machine
end

section
/-!
Requests that are not applicable, and requests that change nothing (O26; R61 to R64, R107): what each request answers,
by the axis state and the kind of the head.
-/

open Sys2Proof Sys2Proof.Machine

namespace Sys2Proof.Machine

variable {s : State} {ax : AxisIx} {flush : Bool} {e : Entry} {es : List Entry}

/-! ### STOP_AXIS (R61) -/

theorem stopAxis_of_idle (h : (s.axis ax).state = .idle) :
    s.stopAxis ax flush = if flush then .done s else .notApplicable 1 := by
  simp only [State.stopAxis, h]

theorem stopAxis_of_faulted (h : (s.axis ax).state = .faulted) : s.stopAxis ax flush = .notApplicable 1 := by
  simp only [State.stopAxis, h]

theorem stopAxis_of_stopping (h : (s.axis ax).state = .stopping) :
    s.stopAxis ax flush =
      if flush && (s.axis ax).stopCause ≠ .fault then .done (s.flushTail ax) else .notApplicable 1 := by
  simp only [State.stopAxis, h]

/-! ### HOLD, RESUME and ADVANCE (R62 to R64) -/

/-- The states in which no motion is RUNNING, HOLDING or HELD. -/
def AxisState.inert (st : AxisState) : Prop := st ∈ [AxisState.idle, .waiting, .stopping, .faulted]

theorem hold_of_inert (h : (s.axis ax).state.inert) : s.hold ax = .notApplicable 1 := by
  simp only [AxisState.inert, List.mem_cons, List.not_mem_nil, or_false] at h
  rcases h with h | h | h | h <;> simp only [State.hold, h]

theorem advance_of_inert (h : (s.axis ax).state.inert) : s.advance ax = .notApplicable 1 := by
  simp only [AxisState.inert, List.mem_cons, List.not_mem_nil, or_false] at h
  rcases h with h | h | h | h <;> simp only [State.advance, h]

theorem resume_of_inert (h : (s.axis ax).state.inert) : s.resume ax = .notApplicable 1 := by
  simp only [AxisState.inert, List.mem_cons, List.not_mem_nil, or_false] at h
  rcases h with h | h | h | h <;> simp only [State.resume, h]

theorem resume_of_running (h : (s.axis ax).state = .running) : s.resume ax = .notApplicable 1 := by
  simp only [State.resume, h]

/-- HOLD where the axis is HOLDING or HELD changes nothing (R62). -/
theorem hold_again (h : (s.axis ax).state = .holding ∨ (s.axis ax).state = .held) : s.hold ax = .done s := by
  rcases h with h | h <;> simp only [State.hold, h]

/-- A reference run is neither held nor advanced (R62, R64). -/
theorem hold_reference (hl : (s.axis ax).list = e :: es) (hk : e.kind = .reference)
    (h : (s.axis ax).state = .running) : s.hold ax = .notApplicable 4 := by
  simp only [State.hold, h, hl, List.head?_cons, hk]

theorem advance_reference (hl : (s.axis ax).list = e :: es) (hk : e.kind = .reference)
    (h : (s.axis ax).state = .running) : s.advance ax = .notApplicable 4 := by
  simp only [State.advance, h, hl, hk]

/-! ### SET_POSITION (R107) -/

theorem setPosition_of_busy {c f : Word}
    (h : (s.axis ax).state ∈ [AxisState.waiting, .running, .holding, .held, .stopping]) :
    s.setPosition ax c f = .notApplicable 2 := by
  simp only [List.mem_cons, List.not_mem_nil, or_false] at h
  rcases h with h | h | h | h | h <;> simp only [State.setPosition, h]

/-- Settles O26, request by request. -/
theorem requestsRefused : Obligations.RequestsRefused := by
  unfold Obligations.RequestsRefused
  refine fun s ax p => ⟨fun h => ?_, fun h hp => ?_, fun h => ⟨hold_of_inert h, advance_of_inert h⟩, fun h => ?_,
    hold_again, fun e es hl hk h => ⟨hold_reference hl hk h, advance_reference hl hk h⟩, setPosition_of_busy⟩
  · change s.stopAxis ax (p.p1 != 0) = .notApplicable 1
    rcases h with ⟨h, hp⟩ | h | ⟨h, hp | hc⟩
    · simp [stopAxis_of_idle h, hp]
    · exact stopAxis_of_faulted h
    · simp [stopAxis_of_stopping h, hp]
    · simp [stopAxis_of_stopping h, hc]
  · change s.stopAxis ax (p.p1 != 0) = .done s
    rw [stopAxis_of_idle h, if_pos (bne_iff_ne.2 hp)]
  · by_cases hr : (s.axis ax).state = .running
    · exact resume_of_running hr
    · exact resume_of_inert (by simpa [AxisState.inert, hr] using h)

end Sys2Proof.Machine
end

section
/-!
The fly conditions and the junction speed (O41; R58, R80): which condition fails first, and what the search for the
junction speed finds.
-/

open Sys2Proof Sys2Proof.Machine

namespace Sys2Proof.Machine

variable {s : State} {st : AxisSetup} {a : Axis} {e n : Entry} {base : Int} {p : Nat → Bool} {cap l : Nat}

/-! ### The fly conditions (R58) -/

/-- The second entry leads on in the direction of the head: condition 2 of R58. -/
def leadsOn (st : AxisSetup) (e n : Entry) (base : Int) : Prop :=
  (n.kind.moves = true → 0 < (n.targetFrom st base - base) * e.dir.sign) ∧
    (n.kind = .jog → dirOfWord n.params.p1 = e.dir)

/-- The fly conditions in their order, each in the words of R58. -/
theorem flyFails_some (s : State) (st : AxisSetup) (e n : Entry) (base : Int) [Decidable (leadsOn st e n base)] :
    s.flyFails st e (some n) base =
      if ¬ leadsOn st e n base then some 2
      else if n.opts.gated && !s.gateOpen n.gate then some 3
      else if !n.kind.moves then some 4
      else none := by
  have h (b : Bool) (hb : b = true ↔ leadsOn st e n base) : (!b) = true ↔ ¬ leadsOn st e n base := by
    rw [← hb, Bool.not_eq_true', Bool.not_eq_true]
  unfold State.flyFails
  dsimp only
  refine if_congr (h _ ?_) rfl rfl
  unfold leadsOn
  cases hk : n.kind <;> simp [MotionKind.moves, beyond_iff, and_comm]

open Classical in
theorem flyFails_of_not_leadsOn (h : ¬ leadsOn st e n base) : s.flyFails st e (some n) base = some 2 := by
  rw [flyFails_some, if_pos h]

open Classical in
theorem flyFails_of_shut (h : leadsOn st e n base) (hg : n.opts.gated = true) (ho : s.gateOpen n.gate = false) :
    s.flyFails st e (some n) base = some 3 := by
  rw [flyFails_some, if_neg (not_not_intro h), hg, ho]
  rfl

open Classical in
theorem flyFails_of_open (h : leadsOn st e n base) (hg : n.opts.gated = true → s.gateOpen n.gate = true) :
    s.flyFails st e (some n) base = if n.kind.moves then none else some 4 := by
  rw [flyFails_some, if_neg (not_not_intro h), if_neg (by simpa using hg)]
  cases n.kind.moves <;> rfl

/-! ### The search among speeds (R80) -/

/-- What the search starts from meets the test, so what it finds does. -/
theorem searchMax_meets (k : Nat) : ∀ r, p r = true → p (searchMax p k r) = true := by
  induction k with
  | zero => exact fun _ h => h
  | succ k ih =>
      intro r h
      refine ih _ ?_
      split
      · assumption
      · exact h

/-- The search finds the largest number below its bound, where the test stays false once it is false. -/
theorem le_searchMax (hp : ∀ v w, v ≤ w → p w = true → p v = true) (k : Nat) :
    ∀ r v, v < r + 2 ^ k → p v = true → v ≤ searchMax p k r := by
  induction k with
  | zero =>
      intro r v h _
      change v ≤ r
      omega
  | succ k ih =>
      intro r v h hv
      refine ih _ v ?_ hv
      have h2 : 2 ^ (k + 1) = 2 ^ k + 2 ^ k := by omega
      split
      · omega
      · rename_i hr
        have : ¬ r + 2 ^ k ≤ v := fun hle => hr (hp _ _ hle hv)
        omega

theorem ceilDiv_mono {x y c : Nat} (h : x ≤ y) : ceilDiv x c ≤ ceilDiv y c :=
  Nat.div_le_div_right (by omega)

theorem sqOf_le {v w : Nat} (h : v ≤ w) : sqOf v ≤ sqOf w :=
  Nat.pow_le_pow_left (Nat.mul_le_mul_right _ h) 2

theorem sqOf_lt {v w : Nat} (h : v < w) : sqOf v < sqOf w :=
  Nat.pow_lt_pow_left (Nat.mul_lt_mul_of_pos_right h (by decide)) (by decide)

/-- A faster deceleration is not shorter. -/
theorem linearLen_mono {u v w rate : Nat} (hu : u ≤ v) (h : v ≤ w) : linearLen v u rate ≤ linearLen w u rate :=
  ceilDiv_mono (by omega)

/-- In LINEAR form a move comes down from a speed within a length as R80 has it. -/
theorem canStop_linear {r : Rates} (hf : r.form = .linear) (l v : Nat) :
    r.canStop l v = true ↔ v ≤ r.floor ∨ linearLen (sqOf v) (sqOf r.floor) r.dec ≤ l := by
  unfold Rates.canStop
  rw [Bool.or_eq_true, decide_eq_true_eq, decide_eq_true_eq]
  refine or_congr_right' fun hv => ?_
  have : ¬ sqOf v ≤ sqOf r.floor := not_le.2 (sqOf_lt (not_le.1 hv))
  simp only [Rates.ramp, Rates.effSq, hf, if_neg this]
  rfl

theorem canStop_anti {r : Rates} (hf : r.form = .linear) {v w : Nat} (h : v ≤ w) (hw : r.canStop l w = true) :
    r.canStop l v = true := by
  rw [canStop_linear hf] at hw ⊢
  by_cases hv : v ≤ r.floor
  · exact Or.inl hv
  · rcases hw with hw | hw
    · omega
    · exact Or.inr ((linearLen_mono (sqOf_le (le_of_not_ge hv)) (sqOf_le h)).trans hw)

/-- The speed under the cap from which a move can stop: what the search finds is one. -/
theorem junctionCap_meets (r : Rates) (l cap : Nat) :
    r.junctionCap (some l) cap ≤ cap ∧ r.canStop l (r.junctionCap (some l) cap) = true := by
  have h := searchMax_meets (p := fun w => w ≤ cap && r.canStop l w) speedBits 0 (by simp [Rates.canStop])
  rwa [Bool.and_eq_true, decide_eq_true_eq] at h

theorem junctionCap_le (r : Rates) (o : Option Nat) (cap : Nat) : r.junctionCap o cap ≤ cap := by
  cases o with
  | none => exact le_refl cap
  | some l => exact (junctionCap_meets r l cap).1

theorem le_junctionCap {r : Rates} (hf : r.form = .linear) (hc : cap < 2 ^ 19) {v : Nat} (hv : v ≤ cap)
    (hs : r.canStop l v = true) : v ≤ r.junctionCap (some l) cap := by
  refine le_searchMax (p := fun w => w ≤ cap && r.canStop l w) (fun v w h hw => ?_) speedBits 0 v ?_ (by simp [hv, hs])
  · simp only [Bool.and_eq_true, decide_eq_true_eq] at hw ⊢
    exact ⟨h.trans hw.1, canStop_anti hf h hw.2⟩
  · rw [speedBits]
    omega

/-! ### The junction speed (R80) -/

/-- The highest speed a junction may have, before condition 3 of R80. -/
def Axis.junctionTop (a : Axis) (e n : Entry) (cap : Nat) : Nat := min cap (min (a.targetSpeed e) (a.targetSpeed n))

theorem le_junctionTop {v : Nat} :
    v ≤ a.junctionTop e n cap ↔ v ≤ cap ∧ v ≤ a.targetSpeed e ∧ v ≤ a.targetSpeed n := by
  unfold Axis.junctionTop
  rw [le_min_iff, le_min_iff]

theorem junctionSpeed_le (a : Axis) (e n : Entry) (cap : Nat) : a.junctionSpeed e n cap ≤ a.junctionTop e n cap :=
  junctionCap_le _ _ _

theorem junctionSpeed_jog (hk : n.kind = .jog) : a.junctionSpeed e n cap = a.junctionTop e n cap := by
  simp only [Axis.junctionSpeed, hk]
  rfl

theorem junctionSpeed_stops (hk : n.kind ≠ .jog) : a.junctionSpeed e n cap =
    (orderRates a.setup n).junctionCap (some (n.targetFrom a.setup e.target - e.target).natAbs)
      (a.junctionTop e n cap) := by
  unfold Axis.junctionSpeed Axis.junctionTop
  cases h : n.kind <;> first | rfl | exact absurd h hk

theorem orderRates_moves (h : n.kind.moves = true) : orderRates st n =
    { form := if n.opts.smooth then .smooth else .linear, acc := rateOr n.params.p3 st.accel
      dec := rateOr n.params.p4 st.decel, jerk := rateOr n.params.p5 st.jerk, floor := st.floor, top := st.maxSpeed } :=
  if_pos h

/-- A LINEAR successor comes down to the floor speed from the junction speed, and from none that is higher (R80). -/
theorem junctionSpeed_linear (hm : n.kind.moves = true) (hk : n.kind ≠ .jog) (hs : n.opts.smooth = false)
    (hc : cap < 2 ^ 19) {stops : Nat → Prop}
    (h : ∀ v, stops v ↔ v ≤ a.setup.floor ∨
      linearLen (sqOf v) (sqOf a.setup.floor) (rateOr n.params.p4 a.setup.decel) ≤
        (n.targetFrom a.setup e.target - e.target).natAbs) :
    stops (a.junctionSpeed e n cap) ∧ ∀ v, v ≤ a.junctionTop e n cap → stops v → v ≤ a.junctionSpeed e n cap := by
  have hr := orderRates_moves (st := a.setup) hm
  have hf : (orderRates a.setup n).form = .linear := by rw [hr, hs]; rfl
  have hstop v : stops v ↔ (orderRates a.setup n).canStop (n.targetFrom a.setup e.target - e.target).natAbs v = true := by
    rw [canStop_linear hf, hr]
    exact h v
  rw [junctionSpeed_stops hk]
  refine ⟨(hstop _).2 (junctionCap_meets _ _ _).2, fun v hv hst => le_junctionCap hf ?_ hv ((hstop v).1 hst)⟩
  exact (le_junctionTop.1 (le_refl _)).1.trans_lt hc

/-- Where the successor can stop from the highest speed the junction may have, that is the junction speed. -/
theorem junctionSpeed_eq_top (hm : n.kind.moves = true) (hk : n.kind ≠ .jog) (hs : n.opts.smooth = false)
    (hc : cap < 2 ^ 19)
    (h : linearLen (sqOf (a.junctionTop e n cap)) (sqOf a.setup.floor) (rateOr n.params.p4 a.setup.decel) ≤
      (n.targetFrom a.setup e.target - e.target).natAbs) :
    a.junctionSpeed e n cap = a.junctionTop e n cap :=
  le_antisymm (junctionSpeed_le a e n cap)
    ((junctionSpeed_linear hm hk hs hc fun _ => Iff.rfl).2 _ (le_refl _) (Or.inr h))

/-- The worked pair of R80: the successor may take 10,000 pulses to come down from 10,000, and needs 495. -/
theorem junctionSpeed_worked (hf : a.setup.floor = 1000) (ht : a.setup.maxSpeed = 100000) (hd : a.setup.decel = 100000)
    (he : e.target = 20000) (hs : e.params.p2 = 20000) (hn : e.newSpeed = none) (hk : n.kind = .moveAbs)
    (h1 : n.params.p1 = 30000) (h2 : n.params.p2 = 10000) (h4 : n.params.p4 = 0) (hl : n.opts.smooth = false)
    (hw : n.newSpeed = none) :
    (a.prof.override = 100 → a.junctionSpeed e n (a.targetSpeed e) = 10000) ∧
      (a.prof.override = 80 → a.junctionSpeed e n 10000 = 8000) := by
  have hte : a.targetSpeed e = max 1000 (min 100000 (20000 * a.prof.override / 100)) := by
    rw [Axis.targetSpeed, scaledSpeed, hf, ht, hn, hs]
    rfl
  have htn : a.targetSpeed n = max 1000 (min 100000 (10000 * a.prof.override / 100)) := by
    rw [Axis.targetSpeed, scaledSpeed, hf, ht, hw, h2]
    rfl
  have hlen : (n.targetFrom a.setup e.target - e.target).natAbs = 10000 := by
    rw [Entry.targetFrom, hk, h1, he]
    rfl
  have hrate : rateOr n.params.p4 a.setup.decel = 100000 := by rw [h4, hd]; rfl
  have hj (cap top : Nat) (hc : cap < 2 ^ 19) (htop : a.junctionTop e n cap = top)
      (hfit : linearLen (sqOf top) (sqOf 1000) 100000 ≤ 10000) : a.junctionSpeed e n cap = top := by
    rw [← htop]
    refine junctionSpeed_eq_top (by rw [hk]; rfl) (by rw [hk]; decide) hl hc ?_
    rwa [hlen, hrate, hf, htop]
  refine ⟨fun ho => hj _ _ ?_ ?_ ?_, fun ho => hj _ _ ?_ ?_ ?_⟩
  · rw [hte, ho]; decide
  · rw [Axis.junctionTop, hte, htn, ho]; decide
  · decide
  · decide
  · rw [Axis.junctionTop, hte, htn, ho]; decide
  · decide

/-- Settles O41: the conditions in their order, the bounds of the search, the worked pair and the target speed. -/
theorem flyConditions : Obligations.FlyConditions := by
  unfold Obligations.FlyConditions
  refine ⟨fun s st e n base => ⟨rfl, fun hm hb => flyFails_of_not_leadsOn fun h => hb (h.1 hm),
    fun hk hd => flyFails_of_not_leadsOn fun h => hd (h.2 hk),
    fun hb hd => ⟨flyFails_of_shut ⟨hb, hd⟩, flyFails_of_open ⟨hb, hd⟩⟩⟩, ?_, ?_, fun _ _ => rfl⟩
  · intro a e n cap stops hm hc hstops
    obtain ⟨h1, h2, h3⟩ := le_junctionTop.1 (junctionSpeed_le a e n cap)
    refine ⟨h1, h2, h3, junctionSpeed_jog, fun hk hs => ?_⟩
    obtain ⟨hst, hmax⟩ := junctionSpeed_linear hm hk hs hc hstops
    exact ⟨hst, fun v hc he hn => hmax v (le_junctionTop.2 ⟨hc, he, hn⟩)⟩
  · intro a e n hf ht hd he hs hn hk h1 h2 h4 hl hw
    exact junctionSpeed_worked hf ht hd he hs hn hk h1 h2 h4 hl hw

end Sys2Proof.Machine
end

section
/-!
START and the setup check that passes (O11; R181, R182): what START changes, and that the checks that begin with the
new setup find nothing.
-/

open Sys2Proof Sys2Proof.Machine

namespace Sys2Proof.Machine

variable {s x y : State} {ax : AxisIx} {a : Axis} {d : Cond} {r : Race} {n : AxisSetup}

/-! ### START (R181) -/

/-- START taken in STOPPED: nothing but the read-back, the clock, the overrides and the mask (R181). -/
theorem exec_start_stopped (h : s.modState = .stopped) (arg : Byte) :
    exec (.start arg) s = .next { s with
      readback := { code := 1, arg := arg, outcome := .taken, count := s.readback.count + 1 }
      modState := .starting
      clock := 0
      axes := s.axes.map (fun a => { a with prof := { a.prof with override := 100 } })
      mask := { ret := (s.readWord 0x14).getLsbD 0, fault := (s.readWord 0x14).getLsbD 1
                state := (s.readWord 0x14).getLsbD 2 }
      setupRead := [] } := by
  have hn : s.noteControl codeStart arg .taken = { s with readback := s.readback.next codeStart arg .taken } := by
    unfold State.noteControl State.activity
    rw [if_neg (by rw [h]; decide)]
  change Host.Outcome.next (s.takeStart arg) = _
  unfold State.takeStart ctlOutcome
  dsimp only
  rw [h]
  simp only [beq_self_eq_true, if_true]
  rw [hn]
  rfl

/-! ### Checks that find nothing, on every axis (R97) -/

/-- A state up to the agenda and to what the checks of its axes have found. -/
def State.unfound (y x : State) : Prop :=
  x = { y with axes := x.axes, agenda := x.agenda } ∧ ∀ ax, ∃ c, x.axis ax = { y.axis ax with seen := c }

/-- No condition that the Position Block checks holds on any axis. -/
def State.clear (y : State) : Prop := ∀ ax d, y.condHolds ax d = false

theorem unfound_self {l : List Job} : y.unfound { y with agenda := l } := ⟨rfl, fun ax => ⟨(y.axis ax).seen, rfl⟩⟩

theorem unfound_agenda (h : y.unfound x) (l : List Job) : y.unfound { x with agenda := l } := by
  obtain ⟨hx, ha⟩ := h
  refine ⟨?_, ha⟩
  rw [hx]

/-- Whether a condition holds does not depend on what has been found before. -/
theorem condHolds_unfound (h : y.unfound x) : x.condHolds ax d = y.condHolds ax d := by
  obtain ⟨c, hc⟩ := h.2 ax
  have hm : x.modState = y.modState := by rw [h.1]
  cases d <;> simp only [State.condHolds, hc, hm] <;> rfl

theorem unfound_check (hy : y.clear) (h : y.unfound x) :
    y.unfound (x.runJob (.check ax d)) ∧ (x.runJob (.check ax d)).agenda = x.agenda := by
  obtain ⟨hx, ha⟩ := h
  have hc : x.condHolds ax d = false := (condHolds_unfound ⟨hx, ha⟩).trans (hy ax d)
  have hj : x.runJob (.check ax d) = x.updAxis ax (fun a => { a with seen := a.seen.put d false }) := by
    change x.checkCond ax d = _
    unfold State.checkCond
    dsimp only
    rw [hc]
    rfl
  rw [hj]
  refine ⟨⟨?_, fun j => ?_⟩, rfl⟩
  · unfold State.updAxis State.setAxis
    rw [hx]
  · obtain ⟨c, hcj⟩ := ha j
    by_cases hja : j = ax
    · subst hja
      exact ⟨c.put d false, by rw [axis_updAxis_same, hcj]⟩
    · exact ⟨c, by rw [axis_updAxis_other _ _ hja, hcj]⟩

/-- An event that leaves only checks that find nothing is closed with nothing else changed. -/
theorem close_of_clear (hy : y.clear) (hm : y.modState ≠ .stopping) (hx : y.unfound x) (hn : x.noAssigns)
    (hg : ∀ j ∈ x.agenda, ∃ ax d, j = Job.check ax d) (hl : x.agenda.length ≤ 4096)
    (hc : y.chain.length ≤ s.chain.length + 1) :
    y.unfound (s.close r x) ∧ (s.close r x).agenda = [] := by
  obtain ⟨hu, ha⟩ := drain_all y.unfound (fun j => ∃ ax d, j = Job.check ax d) (fun _ l h => unfound_agenda h l)
    (fun z j hz ⟨ax, d, hj⟩ => hj ▸ unfound_check hy hz) Config.agendaBound r.picks x hx hg hl
  have hf : x.finish r = x.drain Config.agendaBound r.picks := by
    rw [finish_eq, followUp_of_noAssigns hn]
    unfold State.stopIfAtRest
    rw [if_neg (by rw [hu.1]; simpa using fun h => absurd h hm)]
  rw [close_of_short (by rw [hf, hu.1]; exact hc), hf]
  exact ⟨hu, ha⟩

/-! ### The setup in force (R48, R182) -/

/-- An axis that stood with an empty list, under the setup that has passed. -/
theorem startUnder_standing (h : a.standsEmpty) : a.startUnder n = { a with
    state := a.state.afterStart n.enable
    stopCause := if a.state.afterStart n.enable = .faulted then a.stopCause else .none
    setup := if n.enable then n else { a.setup with enable := false }
    prof := { a.prof with dir := .plus }
    followErr := followErrorOf (if n.enable then n else { a.setup with enable := false }) a.commanded a.feedback
    seen := { a.seen with follow := false, alarm := n.enable && a.seen.alarm } } := by
  unfold Axis.startUnder
  rw [h.1]
  rfl

theorem axis_passSetup (s : State) (ax : AxisIx) :
    s.passSetup.axis ax = (s.axis ax).startUnder (setupOf (s.axisField ax)) := by
  fin_cases ax <;> rfl

theorem setupOf_enable (f : Nat → Word) : (setupOf f).enable = !(f 1 == 0) := rfl

/-- What SETUP_CHECK_PASS asks of the inputs and positions of an axis that is enabled (R98, R105). -/
def State.setupCalm (s : State) (ax : AxisIx) : Prop :=
  s.axisField ax 1 ≠ 0 →
    activeState (s.axis ax).inputs.alarm ((s.axisField ax 16).getLsbD 5) = false ∧
    (s.axisField ax 15 = 0 ∨ (followErrorOf (setupOf (s.axisField ax)) (s.axis ax).commanded
      (s.axis ax).feedback).toInt.natAbs ≤ (s.axisField ax 15).toNat)

/-- Nothing that is checked holds on standing axes whose alarms are not active and whose following errors are
within their limits. -/
theorem clear_passSetup (hs : s.standing) (hc : ∀ ax, s.setupCalm ax) : s.passSetup.clear := by
  intro ax d
  have ha := (axis_passSetup s ax).trans (startUnder_standing (hs ax))
  have hmv : (s.passSetup.axis ax).moving = false := by rw [ha]; exact (hs ax).2.2
  by_cases he : s.axisField ax 1 = 0
  · have hd : (s.passSetup.axis ax).state = .disabled := by
      rw [ha, setupOf_enable, he]
      rfl
    cases d <;> simp [State.condHolds, hmv, hd]
  · obtain ⟨halarm, hfollow⟩ := hc ax he
    have hen : (setupOf (s.axisField ax)).enable = true := by
      rw [setupOf_enable]
      simpa using he
    rw [hen] at ha
    have hal : (s.passSetup.axis ax).alarmActive = false := by
      rw [ha, ← halarm]
      unfold Axis.alarmActive
      congr 1
      exact (BitVec.getLsbD_extractLsb' 0 6 _ 5).trans (by simp)
    have hfo : (s.passSetup.axis ax).setup.followLimit = 0 ∨
        (s.passSetup.axis ax).followMagnitude ≤ (s.passSetup.axis ax).setup.followLimit := by
      rw [ha]
      exact hfollow.imp (fun h => by simp only [if_true, setupOf, h]; rfl) id
    cases d
    · simp [State.condHolds, hmv]
    · simp [State.condHolds, hmv]
    · simp [State.condHolds, hal]
    · have : (decide (0 < (s.passSetup.axis ax).setup.followLimit) &&
          decide ((s.passSetup.axis ax).setup.followLimit < (s.passSetup.axis ax).followMagnitude)) = false := by
        rcases hfo with h | h
        · simp [h]
        · simp [Nat.not_lt.2 h]
      simp only [State.condHolds, Bool.and_assoc, this, Bool.and_false]

/-- The checks of some axes (R97). -/
def allChecks (l : List AxisIx) : List Job :=
  l.flatMap fun ax => [.check ax .limit, .check ax .ready, .check ax .alarm, .check ax .follow]

/-- The checks that begin under the new setup are all that is put on the agenda where there are no watches. -/
theorem checkAxes_unwatched (l : List AxisIx) : ∀ x : State, x.watches = [] →
    x.checkAxes l = { x with agenda := x.agenda ++ allChecks l } := by
  induction l with
  | nil => intro x _; simp [State.checkAxes, allChecks]
  | cons ax l ih =>
      intro x hx
      have h1 : x.report (.followingError ax) (.value (x.axis ax).followMagnitude) = x :=
        report_of_unwatched (by simp [State.unwatched, hx])
      have h2 := ih (x.addChecks ax) hx
      unfold State.checkAxes at h2 ⊢
      rw [List.foldl_cons, h1, h2]
      simp [State.addChecks, State.addJobs, allChecks]

/-- The supervision interval and timer that the setup check loads (R169, R182). -/
theorem passSetup_eq (s : State) : s.passSetup = { s with
    modState := .running, axes := s.startAxes, faults := s.faults.filter s.keepsEntry
    gates := Vector.replicate 16 false, supInterval := s.intervalWord.toNat, setupRead := []
    supTimer := if s.intervalWord = 0 then none else some s.intervalWord.toNat } := by
  have h : (s.intervalWord.toNat = 0) = (s.intervalWord = 0) :=
    propext ⟨fun h => BitVec.eq_of_toNat_eq h, fun h => by rw [h]; rfl⟩
  unfold State.passSetup State.loadSupervision
  simp only [h]
  rfl

/-- SETUP_CHECK_PASS on a standing module without watches: the checks find nothing (R182). -/
theorem exec_setupCheckPass (hm : s.modState = .starting) (hf : s.setupFailure = none) (hs : s.standing)
    (hw : s.watches = []) (hg : s.agenda = []) (has : ∀ ax, (s.axis ax).ref.assignDue = false)
    (hc : ∀ ax, s.setupCalm ax) : ∃ t, exec (.setupCheckPass r) s = .next t ∧ s.passSetup.unfound t ∧ t.agenda = [] := by
  have hx : exec (.setupCheckPass r) s =
      .next (s.close r (s.passSetup.checkAxes (pickOrder r.blocks allAxes))) := by
    change execSetupCheckPass r s = _
    unfold execSetupCheckPass
    rw [if_pos ⟨hm, hf⟩]
  refine ⟨_, hx, ?_⟩
  have hl : (pickOrder r.blocks allAxes).length = 4 := (pickOrder_perm _ _).length_eq
  have hp : s.passSetup.modState ≠ .stopping ∧ s.passSetup.watches = [] ∧ s.passSetup.agenda = [] ∧
      s.passSetup.chain = s.chain := by
    rw [passSetup_eq]
    exact ⟨ModState.noConfusion, hw, hg, rfl⟩
  obtain ⟨hms, hws, hag, hch⟩ := hp
  rw [checkAxes_unwatched _ _ hws, hag, List.nil_append]
  refine close_of_clear (clear_passSetup hs hc) hms unfound_self ⟨fun ax h => ?_, fun ax => ?_⟩ (fun j hj => ?_) ?_
    (by rw [hch]; omega)
  · simp [allChecks] at h
  · rw [← has ax]
    change (s.passSetup.axis ax).ref.assignDue = _
    rw [axis_passSetup, startUnder_standing (hs ax)]
  · simp only [allChecks, List.mem_flatMap, List.mem_cons, List.not_mem_nil, or_false] at hj
    obtain ⟨ax, -, h | h | h | h⟩ := hj <;> exact ⟨ax, _, h⟩
  · simp [allChecks, List.length_flatMap, hl]

/-- Settles O11: START field by field; after the setup check only what the checks have found differs from the state
that the setup leaves, and they find nothing. -/
theorem startAndSetupCheckPasses : Obligations.StartAndSetupCheckPasses := by
  unfold Obligations.StartAndSetupCheckPasses
  refine ⟨fun s arg h => exec_start_stopped h arg, fun s r hm hf hs hw hg has hc => ?_⟩
  obtain ⟨t, ht, ⟨hu, hax⟩, hagenda⟩ := exec_setupCheckPass (r := r) hm hf hs hw hg has hc
  rw [passSetup_eq, hagenda] at hu
  refine ⟨t, ht, by rw [hu], fun g => ?_, by rw [hu], by rw [hu], by rw [hu]; rfl, ?_, fun ax => ?_⟩
  · rw [hu]
    simp [State.gateOpen]
  · conv_lhs => rw [hu]
    rw [hu]
    simp [hg]
  · obtain ⟨c, hc⟩ := hax ax
    have he := startUnder_standing (n := setupOf (s.axisField ax)) (hs ax)
    rw [axis_passSetup, he] at hc
    have hen : (setupOf (s.axisField ax)).enable = decide ¬ s.axisField ax 1 = 0 := by
      rw [setupOf_enable, decide_not]
      rfl
    have hset : (if (setupOf (s.axisField ax)).enable = true then setupOf (s.axisField ax)
        else { (s.axis ax).setup with enable := false }) =
        if s.axisField ax 1 = 0 then { (s.axis ax).setup with enable := false } else setupOf (s.axisField ax) := by
      rw [hen]
      by_cases h : s.axisField ax 1 = 0 <;> simp [h]
    rw [hset] at hc
    refine ⟨?_, by rw [hc], by rw [hc], by rw [hc], by rw [hc], by rw [hc], by rw [hc], by rw [hc], by
      rw [hc]; exact (hs ax).2.1⟩
    rw [hc]
    change (s.axis ax).state.afterStart _ = _
    unfold AxisState.afterStart
    rw [hen]
    by_cases h : s.axisField ax 1 = 0 <;> simp [h]

end Sys2Proof.Machine
end

section
/-!
Cells that end one after another (R10, R45, R46, R125, R151): the return chain they form, what is read of each once
all have ended, and which bytes are written.
-/

open Sys2Proof Sys2Proof.Machine

namespace Sys2Proof.Machine

variable {s t x y : State} {ax : AxisIx} {a b : Axis} {e : Entry} {es : List Entry} {n k : Nat}

/-- A cell that ends: its result part, and whether it has NOTIFY. -/
structure Ending where
  cell : Nat
  res : Result
  notify : Bool

/-- Cells ended one after another. -/
def State.endings (x : State) : List Ending → State
  | [] => x
  | d :: ds => (x.ended d.cell d.res d.notify).endings ds

theorem endings_append (ds es : List Ending) : ∀ {x : State}, x.endings (ds ++ es) = (x.endings ds).endings es := by
  induction ds with
  | nil => intro x; rfl
  | cons d ds ih => exact ih

/-- Endings change memory, the return chain and RETURN, and nothing else (R10, R151). -/
theorem endings_eq : ∀ (ds : List Ending) {x : State}, x.endings ds = { x with
    mem := (x.endings ds).mem, chain := x.chain ++ ds.map (·.cell)
    causes := { x.causes with ret := x.causes.ret || ds.any (·.notify) } }
  | [], x => by simp [State.endings]
  | d :: ds, x => by
      have h := endings_eq ds (x := x.ended d.cell d.res d.notify)
      change (x.ended d.cell d.res d.notify).endings ds = _
      rw [h]
      simp [State.ended, State.endings, List.append_assoc, Bool.or_assoc]

theorem endings_chain (ds : List Ending) : (x.endings ds).chain = x.chain ++ ds.map (·.cell) := by rw [endings_eq]

theorem memoryWf_ended {q : Result} {c : Bool} (h : x.memoryWf = true) : (x.ended n q c).memoryWf = true := by
  rw [← endCell_eq_ended]
  exact memoryWf_endCell h

/-- A byte of a cell's own is written by no other cell's ending. -/
theorem ended_own {m : Nat} {q : Result} {c : Bool} (h : ownByte n k) (hn : n ≠ m) :
    (x.ended m q c).readByte k = x.readByte k :=
  endMem_other (s := x) (n := m) rfl (ownByte_not_mayWrite h hn)

theorem endings_own : ∀ (ds : List Ending) {x : State}, n ∉ ds.map (·.cell) → ownByte n k →
    (x.endings ds).readByte k = x.readByte k
  | [], _, _, _ => rfl
  | d :: ds, x, hn, hk => by
      rw [List.map_cons, List.mem_cons, not_or] at hn
      exact (endings_own ds hn.2 hk).trans (ended_own hk hn.1)

/-- What is read of an ended cell stays while its own bytes stay. -/
theorem endReads_of_own {c f cmd fb el : Word} (h : ∀ k, ownByte n k → t.readByte k = x.readByte k)
    (hr : x.endReads n c f cmd fb el) : t.endReads n c f cmd fb el := by
  obtain ⟨h0, h1, h2, h3, h4, h5⟩ := hr
  have hw (o : Nat) (ho : 0x2C ≤ o ∧ o + 4 ≤ 0x40) : t.readWord (0x800 + 64 * n + o) = x.readWord (0x800 + 64 * n + o) :=
    readWord_congr fun k hk => h _ (Or.inr ⟨by omega, by omega⟩)
  refine ⟨(h _ (Or.inl rfl)).trans h0, ?_, ?_, ?_, ?_, ?_⟩
  · exact (hw 0x2C (by omega)).trans h1
  · exact (hw 0x30 (by omega)).trans h2
  · exact (hw 0x34 (by omega)).trans h3
  · exact (hw 0x38 (by omega)).trans h4
  · exact (hw 0x3C (by omega)).trans h5

/-- A cell reads as it ended. -/
def State.readsEnding (t : State) (d : Ending) : Prop :=
  t.endReads d.cell d.res.codeWord (BitVec.ofNat 32 d.res.fires) d.res.cmd d.res.fb (BitVec.ofNat 32 d.res.elapsed)

theorem ended_reads {d : Ending} (hm : x.memoryWf = true) (hc : d.cell < 480) :
    (x.ended d.cell d.res d.notify).readsEnding d := endMem_reads (s := x) hm hc rfl

/-- Each of the cells reads as it ended. -/
theorem endings_reads (ds : List Ending) : ∀ {x : State}, x.memoryWf = true → (ds.map (·.cell)).Nodup →
    ∀ d ∈ ds, d.cell < 480 → (x.endings ds).readsEnding d := by
  induction ds with
  | nil => intro x _ _ d hd; exact absurd hd List.not_mem_nil
  | cons c ds ih =>
      intro x hm hn d hd hc
      rw [List.map_cons, List.nodup_cons] at hn
      rcases List.mem_cons.1 hd with rfl | hd
      · exact endReads_of_own (fun k hk => endings_own ds hn.1 hk) (ended_reads hm hc)
      · exact ih (memoryWf_ended hm) hn.2 d hd hc

theorem memoryWf_endings : ∀ (ds : List Ending) {x : State}, x.memoryWf = true → (x.endings ds).memoryWf = true
  | [], _, h => h
  | _ :: ds, _, h => memoryWf_endings ds (memoryWf_ended h)

/-- The bytes written lie in the module's part of these cells, and of the last cell that the chain had. -/
theorem endings_other : ∀ (ds : List Ending) {x : State}, (x.endings ds).readByte k ≠ x.readByte k →
    ∃ m, (m ∈ ds.map (·.cell) ∨ x.chain.getLast? = some m) ∧ inModulePart m k
  | [], _, h => absurd rfl h
  | d :: ds, x, h => by
      by_cases hd : (x.ended d.cell d.res d.notify).readByte k = x.readByte k
      · rw [← hd] at h
        obtain ⟨m, hm, hk⟩ := endings_other ds h
        rcases hm with hm | hm
        · exact ⟨m, Or.inl (List.mem_cons_of_mem _ hm), hk⟩
        · rw [show (x.ended d.cell d.res d.notify).chain = x.chain ++ [d.cell] from rfl, List.getLast?_concat] at hm
          exact ⟨m, Or.inl (by rw [← Option.some.inj hm]; exact List.mem_cons_self), hk⟩
      · have hw : mayWrite x d.cell k := by
          by_contra hw
          exact hd (endMem_other (s := x) (n := d.cell) rfl hw)
        rcases hw with hw | hw | ⟨m, hm, h1, h2⟩
        · exact ⟨d.cell, Or.inl List.mem_cons_self, Or.inl hw⟩
        · exact ⟨d.cell, Or.inl List.mem_cons_self, Or.inr hw⟩
        · exact ⟨m, Or.inr hm, Or.inr (Or.inl ⟨h1, h2⟩)⟩

/-! ### Entries flushed (R46) -/

/-- The ending of an entry that is flushed. -/
def flushEnding (a : Axis) (e : Entry) : Ending :=
  ⟨e.cell, endResult a { e with bound := false } .flushed 0, e.opts.notify⟩

theorem flushed_eq_endings (a : Axis) : ∀ (es : List Entry) {x : State},
    x.flushed a es = x.endings (es.map (flushEnding a))
  | [], _ => rfl
  | _ :: es, _ => flushed_eq_endings a es

theorem flushEnding_cells : (es.map (flushEnding a)).map (·.cell) = cellsOf es := by
  rw [List.map_map]
  rfl

theorem flushEnding_notify : (es.map (flushEnding a)).any (·.notify) = es.any (·.opts.notify) := by
  rw [List.any_map]
  rfl

/-- What an entry that never started reads once it is flushed (R46). -/
theorem flushEnding_res (h : e.status ≠ .active) : (flushEnding a e).res =
    { code := EndCode.flushed.code, reason := 0, fly := .none, cmd := a.commanded, fb := a.feedback, elapsed := 0 } := by
  simp [flushEnding, endResult, h]

theorem flushResult_codeWord (cmd fb : Word) : Result.codeWord
    { code := EndCode.flushed.code, reason := 0, fly := .none, cmd := cmd, fb := fb, elapsed := 0 } = 5 := by
  unfold Result.codeWord
  change bytes4 5 0 0 0 = 5
  decide

/-- A flush reads only the positions of the axis. -/
theorem flushEnding_congr (hc : b.commanded = a.commanded) (hf : b.feedback = a.feedback) :
    flushEnding b e = flushEnding a e := by
  unfold flushEnding endResult
  rw [hc, hf]

/-- Each entry that never started reads FLUSHED, with the positions of that moment (R46), whatever ends beside it. -/
theorem endings_flushed {ds : List Ending} (hm : x.memoryWf = true) (hn : (ds.map (·.cell)).Nodup)
    (hd : flushEnding a e ∈ ds) (hs : e.status ≠ .active) (hc : e.cell < 480) :
    (x.endings ds).endReads e.cell 5 0 a.commanded a.feedback 0 := by
  have h := endings_reads ds hm hn _ hd hc
  unfold State.readsEnding at h
  rw [flushEnding_res hs, flushResult_codeWord] at h
  exact h

/-! ### Watches cancelled (R125) -/

/-- The ending of a watch that is cancelled. -/
def cancelEnding (w : Watch) : Ending := ⟨w.cell, w.result EndCode.cancelled.code, w.notify⟩

theorem endings_watches_irrelevant (l : List Watch) : ∀ (ds : List Ending) {x : State},
    ({ x with watches := l } : State).endings ds = { x.endings ds with watches := l }
  | [], _ => rfl
  | d :: ds, x => by
      have h : ({ x with watches := l } : State).ended d.cell d.res d.notify =
          { x.ended d.cell d.res d.notify with watches := l } := by
        unfold State.ended
        rw [State.endMem, State.endMem, endCell_mem_congr (s := x) (t := { x with watches := l }) (b' := false) rfl rfl]
      change (({ x with watches := l } : State).ended d.cell d.res d.notify).endings ds = _
      rw [h]
      exact endings_watches_irrelevant l ds

theorem foldl_endWatch (l : List Watch) : ∀ {x : State},
    l.foldl (fun s w => s.endWatch w .cancelled) x =
      { x.endings (l.map cancelEnding) with
        watches := x.watches.filter fun y => l.all fun w => y.cell != w.cell } := by
  induction l with
  | nil => intro x; simp [State.endings, List.filter_eq_self.2]
  | cons w l ih =>
      intro x
      have h : x.endWatch w .cancelled =
          { x.ended w.cell (w.result EndCode.cancelled.code) w.notify with
            watches := x.watches.filter (fun y => y.cell != w.cell) } := by
        rw [endWatch_eq_ended]
        exact endings_watches_irrelevant _ [cancelEnding w]
      rw [List.foldl_cons, h, ih, endings_watches_irrelevant]
      simp only [List.filter_filter, List.all_cons, Bool.and_comm]
      rfl

/-- Every watch ends CANCELLED, in arming order (R125). -/
theorem cancelAll_eq_endings : x.cancelAll = { x.endings (x.watches.map cancelEnding) with watches := [] } := by
  have h : x.watches.filter (fun y => x.watches.all fun w => y.cell != w.cell) = [] := by
    rw [List.filter_eq_nil_iff]
    intro w hw h
    have := List.all_eq_true.1 h w hw
    simp at this
  unfold State.cancelAll
  rw [foldl_endWatch, h]

theorem cancelEnding_cells (l : List Watch) : (l.map cancelEnding).map (·.cell) = l.map (·.cell) := by
  rw [List.map_map]
  rfl

theorem cancelEnding_notify (l : List Watch) : (l.map cancelEnding).any (·.notify) = l.any (·.notify) := by
  rw [List.any_map]
  rfl

end Sys2Proof.Machine
end

section
/-!
Bindings dropped, lists flushed and ramps to standstill begun, on one axis of a state (R46, R60, R87).
-/

open Sys2Proof Sys2Proof.Machine

namespace Sys2Proof.Machine

variable {s t x y : State} {ax : AxisIx} {a b : Axis} {e n : Entry} {es more : List Entry} {rates : Rates}

/-! ### A binding dropped (R60) -/

/-- The head of a list whose binding, where it has one, is dropped. -/
def unboundHead (e : Entry) (es : List Entry) : Entry :=
  if (es.head?.map (·.bound)).getD false then { e with fly := .declined 5, decided := true } else e

/-- A list whose binding, where it has one, is dropped. -/
def unbindList : List Entry → List Entry
  | [] => []
  | e :: es => unboundHead e es :: match es with
    | [] => []
    | n :: more => { n with bound := false } :: more

theorem unbindList_bound (h : n.bound = true) : unbindList (e :: n :: more) =
    { e with fly := .declined 5, decided := true } :: { n with bound := false } :: more := by
  simp [unbindList, unboundHead, h]

/-- The second entry, where there is one, is not bound. -/
def unboundNext (es : List Entry) : Prop := ∀ n more, es = n :: more → n.bound = false

theorem unboundHead_of_unboundNext (h : unboundNext es) : unboundHead e es = e := by
  cases es with
  | nil => rfl
  | cons n more => simp [unboundHead, h n more rfl]

theorem unbindList_unbound (h : unboundNext es) : unbindList (e :: es) = e :: es := by
  have he := unboundHead_of_unboundNext (e := e) h
  cases es with
  | nil => rfl
  | cons n more =>
      have hn : { n with bound := false } = n := by rw [← h n more rfl]
      simp only [unbindList, he, hn]

theorem dropBinding_eq_unbind : (x.setAxis ax a).dropBinding ax = x.setAxis ax { a with list := unbindList a.list } := by
  unfold State.dropBinding
  rw [axis_setAxis_same]
  split
  · rename_i e n rest hl
    split
    · rename_i hb
      rw [updAxis_setAxis, hl, unbindList_bound hb]
    · rename_i hb
      have hu : unboundNext (n :: rest) := fun _ _ h => by
        cases h
        simpa using hb
      rw [hl, unbindList_unbound hu, ← hl]
  · rename_i hl
    cases h : a.list with
    | nil => rw [show unbindList [] = a.list from h.symm]
    | cons e es =>
        cases es with
        | nil => rw [show unbindList [e] = a.list from h.symm]
        | cons n rest => exact absurd h (hl e n rest)

/-- The cells of a list are those of before. -/
theorem unboundHead_fields (e : Entry) (es : List Entry) : (unboundHead e es).cell = e.cell ∧
    (unboundHead e es).status = e.status ∧ (unboundHead e es).opts = e.opts ∧ (unboundHead e es).kind = e.kind ∧
    (unboundHead e es).params = e.params ∧ (unboundHead e es).target = e.target ∧ (unboundHead e es).dir = e.dir ∧
    (unboundHead e es).elapsed = e.elapsed := by
  unfold unboundHead
  split <;> exact ⟨rfl, rfl, rfl, rfl, rfl, rfl, rfl, rfl⟩

/-! ### The entries behind the head flushed (R46) -/

theorem flushed_congr (hc : b.commanded = a.commanded) (hf : b.feedback = a.feedback) (es : List Entry) :
    x.flushed b es = x.flushed a es := by
  rw [flushed_eq_endings, flushed_eq_endings, List.map_congr_left fun _ _ => flushEnding_congr hc hf]

theorem flushed_unbindList_tail (e : Entry) (es : List Entry) :
    x.flushed a (unbindList (e :: es)).tail = x.flushed a es := by
  cases es <;> rfl

/-- A flush leaves the head alone in the list, its binding dropped. -/
theorem flushTail_setAxis (hl : a.list = e :: es) :
    (x.setAxis ax a).flushTail ax = (x.flushed a es).setAxis ax { a with list := [unboundHead e es] } := by
  have hf (l : List Entry) : x.flushed { a with list := l } (unbindList (e :: es)).tail = x.flushed a es :=
    (flushed_unbindList_tail e es).trans (flushed_congr (b := { a with list := l }) (a := a) rfl rfl es)
  unfold State.flushTail
  rw [dropBinding_eq_unbind, hl]
  dsimp only
  rw [axis_setAxis_same, updAxis_setAxis, endFlushed_setAxis]
  exact congrArg (State.setAxis · ax { a with list := [unboundHead e es] }) (hf _)

/-! ### The plan of a stop (R87) -/

/-- From above the floor speed a LINEAR stop comes down to it at the rate, or sooner where the bound is nearer. -/
theorem stopPlan_linear (hf : rates.form = .linear) {u : Nat} (hu : sqOf rates.floor < u) (a0 : Int) (d : Nat) :
    ∃ final : Ramp, rates.stopPlan u a0 (some d) = rates.stopOf u (noRamp u) final ∧
      final.len = min (linearLen u (sqOf rates.floor) rates.dec) d ∧ final.toSq = sqOf rates.floor := by
  have hfree : rates.freeStop u a0 = linearRamp u (sqOf rates.floor) rates.dec := by
    unfold Rates.freeStop
    rw [if_neg (by simp [Nat.not_le.2 hu]), hf]
  have hret : rates.returnRamp u a0 = noRamp u := by
    unfold Rates.returnRamp
    rw [hf]
  unfold Rates.stopPlan
  dsimp only
  rw [hfree, hret]
  split
  · rename_i h
    exact ⟨_, rfl, (Nat.min_eq_left h).symm, rfl⟩
  · rename_i h
    have hd : d = min (linearLen u (sqOf rates.floor) rates.dec) d := (Nat.min_eq_right (Nat.le_of_not_le h)).symm
    split
    · exact ⟨_, rfl, hd, rfl⟩
    · exact ⟨_, rfl, hd, rfl⟩

/-- A plan that is one deceleration ends at the end of that, at its end speed. -/
theorem stopOf_facts (r : Rates) (u : Nat) (final : Ramp) :
    (r.stopOf u (noRamp u) final).length = final.len ∧ (r.stopOf u (noRamp u) final).moved = 0 ∧
      (r.stopOf u (noRamp u) final).sqAt final.len = final.toSq := by
  refine ⟨Nat.zero_add _, rfl, ?_⟩
  simp [Plan.sqAt, Rates.stopOf, noRamp, Ramp.sqAt]

/-- How far a stop may lead (R87). -/
def Axis.stopBound (a : Axis) : Option Nat → Nat
  | none => a.rangeBound
  | some d => min d a.rangeBound

theorem axisStopPlan_eq (a : Axis) (rates : Rates) (bound : Option Nat) :
    a.stopPlan rates bound = rates.stopPlan a.prof.speedSq a.prof.accel (some (a.stopBound bound)) := by
  cases bound <;> rfl

/-- A LINEAR deceleration from above the floor speed. -/
theorem stopPlan_facts (hf : rates.form = .linear) (hu : sqOf rates.floor < a.prof.speedSq) (bound : Option Nat) :
    (a.stopPlan rates bound).moved = 0 ∧
      (a.stopPlan rates bound).length = min (linearLen a.prof.speedSq (sqOf rates.floor) rates.dec) (a.stopBound bound) ∧
      (a.stopPlan rates bound).sqAt (a.stopPlan rates bound).length = sqOf rates.floor := by
  obtain ⟨final, hp, hlen, hto⟩ := stopPlan_linear hf hu a.prof.accel (a.stopBound bound)
  obtain ⟨h1, h2, h3⟩ := stopOf_facts rates a.prof.speedSq final
  rw [axisStopPlan_eq, hp]
  exact ⟨h2, h1.trans hlen, by rw [h1, h3, hto]⟩

/-- Such a deceleration makes a pulse where the bound leaves one. -/
theorem stopPlan_length_pos (hf : rates.form = .linear) (hu : sqOf rates.floor < a.prof.speedSq) (hd : 0 < rates.dec)
    {bound : Option Nat} (hb : 0 < a.stopBound bound) : 0 < (a.stopPlan rates bound).length := by
  rw [(stopPlan_facts hf hu bound).2.1]
  exact lt_min (linearLen_pos (Nat.ne_of_gt hu) hd) hb

theorem stopBegun_ramps (hf : rates.form = .linear) (hl : rates.floor = a.setup.floor)
    (hu : sqOf a.setup.floor < a.prof.speedSq) (bound : Option Nat) :
    (a.stopBegun rates bound).ramps a rates.dec (a.stopBound bound) := by
  obtain ⟨h1, h2, -⟩ := stopPlan_facts hf (hl ▸ hu) bound
  exact ⟨rfl, rfl, rfl, rfl, _, rfl, h1, hl ▸ h2⟩

/-- A deceleration that makes a pulse is not done as it begins. -/
theorem stopBegun_not_done {bound : Option Nat} (h : 0 < (a.stopPlan rates bound).length)
    (hm : (a.stopPlan rates bound).moved = 0) : (a.stopBegun rates bound).planDone = false := by
  rw [planDone_eq (q := a.stopPlan rates bound) rfl, hm]
  exact decide_eq_false (Nat.not_le.2 h)

/-- A target within the range that the axis travels in bounds a stop before the range does (R87, R93). -/
theorem distanceTo_le_rangeBound (hd : a.prof.dir = e.dir) (h1 : -2147483647 ≤ e.target) (h2 : e.target ≤ 2147483647) :
    distanceTo a.commanded e.target e.dir ≤ a.rangeBound := by
  unfold distanceTo Axis.rangeBound maxInt32
  rw [← hd]
  cases a.prof.dir <;> simp only [Dir.sign] <;> omega

/-! ### Ramps that end an order (R54, R64, R70) -/

/-- An axis on its way to end its order at standstill. -/
def Axis.ending (a : Axis) (cause : StopCause) (code : EndCode) : Axis :=
  { a with state := .stopping, stopCause := cause, rampEnd := code }

/-- The distance that bounds the stop of an order with a target or edge. -/
def Entry.stopRoom (e : Entry) (a : Axis) : Option Nat := some (distanceTo a.commanded e.target e.dir)

theorem rampToEnd_setAxis {c : StopCause} {code : EndCode}
    (h : ((a.ending c code).stopBegun rates (e.stopRoom a)).planDone = false) :
    (x.setAxis ax a).rampToEnd ax e c code rates =
      x.setAxis ax ((a.ending c code).stopBegun rates (e.stopRoom a)) := by
  unfold State.rampToEnd
  dsimp only
  rw [updAxis_setAxis, axis_setAxis_same, beginStop_setAxis, axis_setAxis_same]
  refine if_neg ?_
  change ¬ ((a.ending c code).stopBegun rates (e.stopRoom a)).planDone = true
  rw [h]
  decide

/-- The rates of a move or JOG without SMOOTH (R75). -/
theorem orderRates_linear (st : AxisSetup) (hk : e.kind.moves = true) (hs : e.opts.smooth = false) :
    (orderRates st e).form = .linear ∧ (orderRates st e).floor = st.floor ∧
      (orderRates st e).dec = rateOr e.params.p4 st.decel := by
  rw [orderRates_moves hk, hs]
  exact ⟨rfl, rfl, rfl⟩

theorem stopRates_dec (st : AxisSetup) (o : Option Entry) : (stopRates st o).dec = st.stopDecel := rfl

theorem stopRates_linear (st : AxisSetup) (hk : e.kind.moves = true) (hs : e.opts.smooth = false) :
    (stopRates st (some e)).form = .linear ∧ (stopRates st (some e)).floor = st.floor := by
  obtain ⟨h1, h2, -⟩ := orderRates_linear st hk hs
  exact ⟨h1, h2⟩

/-- Rates of a LINEAR deceleration on an axis that has room and speed for it. -/
structure Axis.Slows (a : Axis) (rates : Rates) : Prop where
  form : rates.form = .linear
  floor : rates.floor = a.setup.floor
  fast : sqOf a.setup.floor < a.prof.speedSq
  dec : 0 < rates.dec

/-- What a ramp that ends an order makes of the axis, where it makes a pulse (R54, R87). -/
theorem Axis.Slows.rampToEnd {c : StopCause} {code : EndCode} (h : a.Slows rates)
    (hr : 0 < a.stopBound (e.stopRoom a)) :
    (x.setAxis ax a).rampToEnd ax e c code rates =
      x.setAxis ax ((a.ending c code).stopBegun rates (e.stopRoom a)) := by
  refine rampToEnd_setAxis (stopBegun_not_done (a := a.ending c code) ?_ ?_)
  · exact stopPlan_length_pos (a := a.ending c code) h.form (h.floor ▸ h.fast) h.dec hr
  · exact (stopPlan_facts (a := a.ending c code) h.form (h.floor ▸ h.fast) _).1

theorem Axis.Slows.ramps {c : StopCause} {code : EndCode} (h : a.Slows rates) (bound : Option Nat) :
    ((a.ending c code).stopBegun rates bound).ramps a rates.dec (a.stopBound bound) :=
  stopBegun_ramps (a := a.ending c code) h.form h.floor h.fast bound

end Sys2Proof.Machine
end

section
/-!
Stops bound by the target (O29; R54, R61, R62, R64, R87): STOP_AXIS, HOLD and ADVANCE on a RUNNING move or JOG.
-/

open Sys2Proof Sys2Proof.Machine

namespace Sys2Proof.Machine

variable {s t : State} {ax : AxisIx} {a b : Axis} {e : Entry} {es : List Entry} {flush : Bool}

theorem kind_of_moves {k : MotionKind} (h : k.moves = true) : k = .moveAbs ∨ k = .moveRel ∨ k = .jog := by
  cases k
  · exact Or.inl rfl
  · exact Or.inr (Or.inl rfl)
  · exact Or.inr (Or.inr rfl)
  · cases h
  · cases h

/-! ### What the requests make of a RUNNING move or JOG -/

theorem stopAxis_moves (hs : (s.axis ax).state = .running) (hl : (s.axis ax).list = e :: es)
    (hk : e.kind.moves = true) : s.stopAxis ax flush =
      .done ((((s.flushIf ax flush).dropBinding ax).rampToEnd ax e .request .stopped
        (stopRates (s.axis ax).setup (some e))).settle ax) := by
  rcases kind_of_moves hk with h | h | h <;> simp only [State.stopAxis, hs, hl, List.head?_cons, h]

theorem hold_moves (hs : (s.axis ax).state = .running) (hl : (s.axis ax).list = e :: es)
    (hk : e.kind.moves = true) : s.hold ax =
      .done ((((s.dropBinding ax).setAxisState ax .holding .none).beginStop ax (orderRates (s.axis ax).setup e)
        (e.stopRoom (s.axis ax))).arriveIfDue ax) := by
  rcases kind_of_moves hk with h | h | h <;> simp only [State.hold, hs, hl, List.head?_cons, h] <;> rfl

theorem advance_moves (hs : (s.axis ax).state = .running ∨ (s.axis ax).state = .holding ∨ (s.axis ax).state = .held)
    (hl : (s.axis ax).list = e :: es) (hk : e.kind.moves = true) :
    s.advance ax = .done (if e.opts.fly then s.advanceFly ax e es else s.advanceRamp ax e) := by
  rcases hs with hs | hs | hs <;> rcases kind_of_moves hk with h | h | h <;> simp only [State.advance, hs, hl, h]

/-- An axis that enters STOPPING is left so by the settling of its list (3.3). -/
theorem settle_setAxis_busy (h : b.state ≠ .idle) : (s.setAxis ax b).settle ax = s.setAxis ax b :=
  settle_eq_self (Or.inl (by rwa [axis_setAxis_same]))

/-! ### The ramps they begin -/

theorem stopAxis_ramp (hs : (s.axis ax).state = .running) (hl : (s.axis ax).list = e :: es)
    (hk : e.kind.moves = true) (h : (s.axis ax).Slows (stopRates (s.axis ax).setup (some e)))
    (hr : 0 < (s.axis ax).stopBound (e.stopRoom (s.axis ax))) :
    s.stopAxis ax false = .done (s.setAxis ax
      (({ s.axis ax with list := unbindList (e :: es) }.ending .request .stopped).stopBegun
        (stopRates (s.axis ax).setup (some e)) (e.stopRoom (s.axis ax)))) := by
  rw [stopAxis_moves hs hl hk]
  change Carried.done (((s.dropBinding ax).rampToEnd ax e .request .stopped _).settle ax) = _
  have hd : s.dropBinding ax = s.setAxis ax { s.axis ax with list := unbindList (e :: es) } := by
    rw [← hl, ← dropBinding_eq_unbind, setAxis_axis]
  have h' : ({ s.axis ax with list := unbindList (e :: es) } : Axis).Slows (stopRates (s.axis ax).setup (some e)) :=
    ⟨h.form, h.floor, h.fast, h.dec⟩
  rw [hd, h'.rampToEnd hr]
  exact congrArg _ (settle_setAxis_busy AxisState.noConfusion)

theorem hold_ramp (hs : (s.axis ax).state = .running) (hl : (s.axis ax).list = e :: es)
    (hk : e.kind.moves = true) (h : (s.axis ax).Slows (orderRates (s.axis ax).setup e))
    (hr : 0 < (s.axis ax).stopBound (e.stopRoom (s.axis ax))) :
    s.hold ax = .done (s.setAxis ax
      (({ s.axis ax with list := unbindList (e :: es), state := .holding, stopCause := .none } : Axis).stopBegun
        (orderRates (s.axis ax).setup e) (e.stopRoom (s.axis ax)))) := by
  have hd : s.dropBinding ax = s.setAxis ax { s.axis ax with list := unbindList (e :: es) } := by
    rw [← hl, ← dropBinding_eq_unbind, setAxis_axis]
  rw [hold_moves hs hl hk, hd, setAxisState_setAxis, beginStop_setAxis]
  have hn := stopBegun_not_done (a := { s.axis ax with list := unbindList (e :: es), state := .holding, stopCause := .none })
    (stopPlan_length_pos (a := s.axis ax) h.form (h.floor ▸ h.fast) h.dec hr)
    (stopPlan_facts (a := s.axis ax) h.form (h.floor ▸ h.fast) (e.stopRoom (s.axis ax))).1
  unfold State.arriveIfDue
  rw [axis_setAxis_same, if_neg (by rw [hn]; decide)]

theorem advance_ramp (hs : (s.axis ax).state = .running) (hl : (s.axis ax).list = e :: es)
    (hk : e.kind.moves = true) (hf : e.opts.fly = false) (h : (s.axis ax).Slows (orderRates (s.axis ax).setup e))
    (hr : 0 < (s.axis ax).stopBound (e.stopRoom (s.axis ax))) :
    s.advance ax = .done (s.setAxis ax (((s.axis ax).ending .request .advanced).stopBegun
        (orderRates (s.axis ax).setup e) (e.stopRoom (s.axis ax)))) := by
  rw [advance_moves (Or.inl hs) hl hk, hf]
  refine congrArg Carried.done ?_
  change s.advanceRamp ax e = _
  unfold State.advanceRamp
  dsimp only
  rw [if_neg (by rw [hs]; decide)]
  conv_lhs => rw [← setAxis_axis (x := s) (ax := ax), axis_setAxis_same]
  rw [h.rampToEnd hr]
  exact settle_setAxis_busy AxisState.noConfusion

/-- The distance to a target within the range that the axis travels in bounds its stop. -/
theorem stopBound_target (hd : (s.axis ax).prof.dir = e.dir) (h1 : -2147483647 ≤ e.target) (h2 : e.target ≤ 2147483647) :
    (s.axis ax).stopBound (e.stopRoom (s.axis ax)) = (e.remaining (s.axis ax).commanded.toInt).toNat :=
  Nat.min_eq_left (distanceTo_le_rangeBound hd h1 h2)

/-- The plan of a deceleration with room for a pulse: how long it is, and that it ends at the floor speed. -/
theorem Axis.Slows.plan {rates : Rates} {rate room : Nat} {bound : Option Nat} (h : a.Slows rates)
    (hrate : rates.dec = rate) (hb : a.stopBound bound = room) :
    (a.stopPlan rates bound).moved = 0 ∧
      (a.stopPlan rates bound).length = min (linearLen a.prof.speedSq (sqOf a.setup.floor) rate) room ∧
      (a.stopPlan rates bound).sqAt (a.stopPlan rates bound).length = sqOf a.setup.floor := by
  obtain ⟨h1, h2, h3⟩ := stopPlan_facts h.form (h.floor ▸ h.fast) bound
  rw [hb, hrate, h.floor] at h2
  rw [h.floor] at h3
  exact ⟨h1, h2, h3⟩

theorem slows_stop {rate : Nat} (hk : e.kind.moves = true) (hsm : e.opts.smooth = false)
    (hu : sqOf a.setup.floor < a.prof.speedSq) (hrate : rate = a.setup.stopDecel) (h0 : 0 < rate) :
    a.Slows (stopRates a.setup (some e)) :=
  have h := stopRates_linear a.setup hk hsm
  ⟨h.1, h.2, hu, by rw [stopRates_dec, ← hrate]; exact h0⟩

theorem slows_order {rate : Nat} (hk : e.kind.moves = true) (hsm : e.opts.smooth = false)
    (hu : sqOf a.setup.floor < a.prof.speedSq) (hrate : rate = rateOr e.params.p4 a.setup.decel) (h0 : 0 < rate) :
    a.Slows (orderRates a.setup e) :=
  have h := orderRates_linear a.setup hk hsm
  ⟨h.1, h.2.1, hu, by rw [h.2.2, ← hrate]; exact h0⟩

/-- The list of an axis whose binding, where it has one, a request has dropped (R60). -/
theorem unbindList_cases (e : Entry) (es : List Entry) :
    ((∀ n more, es = n :: more → n.bound = false) → unbindList (e :: es) = e :: es) ∧
      (∀ n more, es = n :: more → n.bound = true → unbindList (e :: es) =
        { e with fly := .declined 5, decided := true } :: { n with bound := false } :: more) :=
  ⟨unbindList_unbound, fun _ _ h hb => h ▸ unbindList_bound hb⟩

/-- Settles O29: each request begins the same deceleration, at its own rate. -/
theorem stopRampBoundByTarget : Obligations.StopRampBoundByTarget := by
  unfold Obligations.StopRampBoundByTarget
  intro s ax p e es k rate hk hs hl hm hsm hu h0 hd h1 h2 hrem
  have hb := stopBound_target (s := s) (ax := ax) hd h1 h2
  have hr : 0 < (s.axis ax).stopBound (e.stopRoom (s.axis ax)) := by rw [hb]; omega
  have hax (b : Axis) : (∀ j, j ≠ ax → (s.setAxis ax b).axis j = s.axis j) ∧
      s.setAxis ax b = { s with axes := (s.setAxis ax b).axes } := ⟨fun j hj => axis_setAxis_other s b hj, rfl⟩
  obtain ⟨hunb, hbnd⟩ := unbindList_cases e es
  rcases hk with ⟨rfl, hp, hrate⟩ | ⟨rfl, hrate⟩ | ⟨rfl, hf, hrate, hn⟩
  · have h := slows_stop hm hsm hu hrate h0
    have hc : s.carryOut .stopAxis (.axis ax) p = s.stopAxis ax false := by
      change s.stopAxis ax (p.p1 != 0) = _
      rw [hp]
      rfl
    refine ⟨_, hc.trans (stopAxis_ramp hs hl hm h hr), ?_⟩
    rw [axis_setAxis_same]
    exact ⟨nofun, fun _ => ⟨rfl, rfl, rfl⟩, hunb, hbnd, rfl, rfl, ⟨_, rfl, h.plan hrate.symm hb⟩, hax _⟩
  · have h := slows_order hm hsm hu hrate h0
    refine ⟨_, hold_ramp hs hl hm h hr, ?_⟩
    rw [axis_setAxis_same]
    exact ⟨fun _ => ⟨rfl, rfl⟩, fun h => absurd rfl h, hunb, hbnd, rfl, rfl,
      ⟨_, rfl, h.plan ((orderRates_linear _ hm hsm).2.2.trans hrate.symm) hb⟩, hax _⟩
  · have h := slows_order hm hsm hu hrate h0
    refine ⟨_, advance_ramp hs hl hm hf h hr, ?_⟩
    rw [axis_setAxis_same]
    exact ⟨nofun, fun _ => ⟨rfl, rfl, rfl⟩, fun _ => hl, fun n more he hb => absurd hb (by rw [hn n more he]; decide),
      rfl, rfl, ⟨_, rfl, h.plan ((orderRates_linear _ hm hsm).2.2.trans hrate.symm) hb⟩, hax _⟩

end Sys2Proof.Machine
end

section
/-!
The output pulse of an axis that no longer runs its order, or runs a JOG (O34; R53 to R55, R62, R79, R87): the last
pulse of a ramp to standstill, and the pulses of a JOG before its edge.
-/

open Sys2Proof Sys2Proof.Machine

namespace Sys2Proof.Machine

variable {s t x y : State} {r : Race} {ax : AxisIx} {a b d : Axis} {e : Entry} {es : List Entry} {q : Plan} {c : Conds}
  {code : EndCode}

/-! ### The axis after a pulse, in whatever state it is (R91, R92) -/

/-- A pulse of an axis on which the Position Block finds nothing, without watches; `b` is the axis after it. -/
structure State.Pulses (s : State) (ax : AxisIx) (a : Axis) (q : Plan) (b : Axis) : Prop where
  quiet : s.quiet = true
  watches : s.watches = []
  axis : a = s.axis ax
  moving : a.moving = true
  undisturbed : a.undisturbed
  able : a.state ≠ .disabled ∧ a.state ≠ .faulted
  plan : a.prof.plan = some q
  low : -2147483648 ≤ a.commanded.toInt + a.prof.dir.sign
  high : a.commanded.toInt + a.prof.dir.sign ≤ 2147483647
  pulsed : b = a.pulsed

/-- What a pulse leaves of the axis. -/
theorem pulsed_keeps (a : Axis) : a.pulsed.state = a.state ∧ a.pulsed.stopCause = a.stopCause ∧
    a.pulsed.rampEnd = a.rampEnd ∧ a.pulsed.list = a.list ∧ a.pulsed.ref = a.ref ∧ a.pulsed.setup = a.setup ∧
    a.pulsed.inputs = a.inputs ∧ a.pulsed.feedback = a.feedback ∧ a.pulsed.referenced = a.referenced ∧
    a.pulsed.pendingFault = a.pendingFault ∧ a.pulsed.commanded = wordOfInt a.nextCommanded := by
  rw [pulsed_eq]
  exact ⟨rfl, rfl, rfl, rfl, rfl, rfl, rfl, rfl, rfl, rfl, rfl⟩

theorem pulsed_plan (hp : a.prof.plan = some q) : a.pulsed.prof.plan = some { q with moved := q.moved + 1 } ∧
    a.pulsed.prof.speedSq = clampSq a.setup (q.sqAt (q.moved + 1)) ∧
    a.pulsed.prof.accel = q.accelAt (q.moved + 1) ∧
    a.pulsed.prof.phase = if a.rampingDown then .decelerating else q.phaseAt (q.moved + 1) := by
  have hc : a.counted.prof.plan = some { q with moved := q.moved + 1 } := by
    change a.prof.plan.map _ = _
    rw [hp]
    rfl
  rw [pulsed_of_plan hc]
  exact ⟨hc, rfl, rfl, rfl⟩

theorem State.Pulses.moves (h : s.Pulses ax a q b) : b.moving = true := by
  have hne : b.prof.phase ≠ .standing := by
    rw [h.pulsed, (pulsed_plan h.plan).2.2.2]
    split
    · decide
    · exact phaseAt_ne_standing q _
  simpa [Axis.moving] using hne

theorem State.Pulses.stays (h : s.Pulses ax a q b) : b.undisturbed := h.pulsed ▸ pulsed_undisturbed h.undisturbed

theorem State.Pulses.here (h : s.Pulses ax a q b) : b.commanded = BitVec.ofInt 32 (a.commanded.toInt + a.prof.dir.sign) ∧
    b.commanded.toInt = a.commanded.toInt + a.prof.dir.sign := by
  have hc : b.commanded = wordOfInt a.nextCommanded := h.pulsed ▸ (pulsed_keeps a).2.2.2.2.2.2.2.2.2.2
  exact ⟨hc, hc ▸ toInt_wordOfInt h.low h.high⟩

theorem State.Pulses.list (h : s.Pulses ax a q b) : b.list = a.list := h.pulsed ▸ (pulsed_keeps a).2.2.2.1

theorem State.Pulses.ref (h : s.Pulses ax a q b) : b.ref = a.ref := h.pulsed ▸ (pulsed_keeps a).2.2.2.2.1

theorem State.Pulses.state (h : s.Pulses ax a q b) : b.state = a.state := h.pulsed ▸ (pulsed_keeps a).1

theorem State.Pulses.feedback (h : s.Pulses ax a q b) : b.feedback = a.feedback :=
  h.pulsed ▸ (pulsed_keeps a).2.2.2.2.2.2.2.1

theorem State.Pulses.nextPlan (h : s.Pulses ax a q b) : b.prof.plan = some { q with moved := q.moved + 1 } :=
  h.pulsed ▸ (pulsed_plan h.plan).1

theorem State.Pulses.agenda (h : s.Pulses ax a q b) : s.agenda = [] := (quiet_iff.1 h.quiet).1

theorem State.Pulses.done (h : s.Pulses ax a q b) (hq : q.moved + 1 = q.length) : b.planDone = true := by
  rw [planDone_eq h.nextPlan]
  exact decide_eq_true (Nat.le_of_eq hq.symm)

theorem State.Pulses.short (h : s.Pulses ax a q b) (hq : q.moved + 1 < q.length) : b.planDone = false := by
  rw [planDone_eq h.nextPlan]
  exact decide_eq_false (Nat.not_le.2 hq)

/-- A pulse is known by what the sequencer makes of the axis where the pulse has brought it. -/
theorem State.Pulses.exec (h : s.Pulses ax a q b) (hd : d.undisturbed) (hy : y.agenda = []) (hm : y.modState = s.modState)
    (hch : y.chain.length ≤ s.chain.length + 1)
    (hstep : ∀ l c, ∃ c', (({ s with agenda := l } : State).setAxis ax { b with seen := c }).progress ax
      = ({ y with agenda := l } : State).setAxis ax { d with seen := c' }) :
    ∃ c, Sys2Proof.Machine.exec (.outputPulse ax r) s = .next (y.setAxis ax { d with seen := c }) := by
  have hax := h.axis
  refine exec_pulse_progress h.quiet h.watches ?_ (hax ▸ h.undisturbed) hd hy hm hch fun l c => ?_
  · exact hax ▸ canPulse_of h.moving h.able.1 h.able.2 h.low h.high
  · rw [← hax, ← h.pulsed]
    exact hstep l c

/-! ### The sequencer on an axis that does not run its order -/

theorem progress_of_not_running (h : b.state ≠ .running) :
    (x.setAxis ax b).progress ax = ((x.setAxis ax b).arriveIfDue ax).indexSpan ax := by
  have h1 : (x.setAxis ax b).pendingIfDue ax = x.setAxis ax b := by
    unfold State.pendingIfDue
    dsimp only
    rw [axis_setAxis_same]
    split
    · exact if_neg (by simp [h])
    · rfl
  have h2 : b.commitReached = false := by
    unfold Axis.commitReached
    split
    · simp [h]
    · rfl
  have h3 : b.edgeDecelReached = false := by
    unfold Axis.edgeDecelReached
    split
    · simp [h]
    · rfl
  have h4 (z : State) : (z.setAxis ax b).edgeDecelIfDue ax = z.setAxis ax b := by
    unfold State.edgeDecelIfDue
    rw [axis_setAxis_same, h3]
    rfl
  unfold State.progress
  dsimp only
  rw [h1, axis_setAxis_same, decideIfDue_undue h2, h4]

/-- A ramp that ends an order has come to standstill (R54, R55). -/
theorem arrive_stopping (hs : b.state = .stopping) (hc : b.stopCause ≠ .fault) :
    (x.setAxis ax b).arrive ax = (x.setAxis ax b).finishHead ax b.rampEnd := by
  unfold State.arrive
  dsimp only
  rw [axis_setAxis_same, hs]
  exact if_neg hc

/-- A fault ramp has come to standstill (R69). -/
theorem arrive_fault (hs : b.state = .stopping) (hc : b.stopCause = .fault) :
    (x.setAxis ax b).arrive ax = (x.setAxis ax b).becomeFaulted ax := by
  unfold State.arrive
  dsimp only
  rw [axis_setAxis_same, hs]
  exact if_pos hc

/-- A held ramp has come to standstill on the target or edge, or short of it (R54, R62, R87). -/
theorem arrive_holding (hs : b.state = .holding) (hl : b.list = e :: es) :
    (x.setAxis ax b).arrive ax =
      if b.commanded.toInt = e.target then (x.setAxis ax b).finishHead ax (if e.kind = .jog then .limited else .completed)
      else ((x.setAxis ax b).stand ax).setAxisState ax .held .none := by
  unfold State.arrive
  dsimp only
  rw [axis_setAxis_same, hs, hl]
  simp only [List.head?_cons]
  unfold State.holdStood
  rw [axis_setAxis_same]

/-! ### The only order of an axis ended -/

/-- An axis whose only order has ended at standstill. -/
def Axis.endedWith (a : Axis) (e : Entry) (code : EndCode) : Axis :=
  { a.stood.headEnded e [] code with state := .idle, stopCause := .none }

theorem endedWith_seen (a : Axis) (c : Conds) (e : Entry) (code : EndCode) :
    ∃ c', ({ a with seen := c } : Axis).endedWith e code = { a.endedWith e code with seen := c' } := by
  obtain ⟨c', hc⟩ := stood_withSeen (a := a) (c := c)
  refine ⟨c', ?_⟩
  unfold Axis.endedWith
  rw [hc]
  rfl

theorem endedWith_undisturbed (hm : a.moving = true) (h : a.undisturbed) : (a.endedWith e code).undisturbed := by
  refine undisturbed_congr (a := a) ?_ ?_ (stood_prof hm).2.2 h
  · exact (show (a.endedWith e code).setup = a.stood.setup from rfl).trans (by rw [stood_eq])
  · exact (show (a.endedWith e code).inputs = a.stood.inputs from rfl).trans (by rw [stood_eq])

theorem endedWith_phase (h : a.ref.phase = .none) : (a.endedWith e code).ref.phase = .none := by
  change (if e.kind = .reference then a.stood.ref.afterRun else a.stood.ref).phase = .none
  split
  · rfl
  · rw [stood_eq]
    exact h

theorem endedWith_phase_reference (h : e.kind = .reference) : (a.endedWith e code).ref.phase = .none := by
  change (if e.kind = .reference then a.stood.ref.afterRun else a.stood.ref).phase = .none
  rw [if_pos h]
  rfl

/-- What the result part of an order that ends reads, where only a move has a fly outcome (R17, R21). -/
theorem endResult_word (hs : e.status = .active) (hf : e.kind.moves = false → e.fly = .none) (a : Axis) (code : EndCode)
    (reason : Nat) : (endResult a e code reason).codeWord = bytes4 code.code reason e.fly.bits 0 := by
  have hfly : (endResult a e code reason).fly = e.fly := by
    unfold endResult
    dsimp only
    rw [hs]
    cases hm : e.kind.moves
    · exact (hf hm).symm
    · rfl
  unfold Result.codeWord
  rw [hfly]
  rfl

theorem headEnded_readsEnd (hm : s.memoryWf = true) (hn : e.cell < 480) (hs : e.status = .active)
    (hf : e.kind.moves = false → e.fly = .none) (reason : Nat) :
    (s.headEnded b e code reason).endReads e.cell (bytes4 code.code reason e.fly.bits 0) 0 b.commanded b.feedback
      (BitVec.ofNat 32 e.elapsed) := by
  have h : (s.headEnded b e code reason).readsEnding ⟨e.cell, endResult b e code reason, e.opts.notify⟩ :=
    ended_reads (d := ⟨e.cell, endResult b e code reason, e.opts.notify⟩) hm hn
  unfold State.readsEnding at h
  dsimp only at h
  rw [endResult_word hs hf] at h
  have he : (endResult b e code reason).elapsed = e.elapsed := by simp [endResult, hs]
  rw [he] at h
  exact h

theorem headEnded_other (s : State) (b : Axis) (e : Entry) (code : EndCode) (reason : Nat) {k : Nat}
    (hk : ¬ mayWrite s e.cell k) : (s.headEnded b e code reason).readByte k = s.readByte k :=
  endMem_other (s := s) (n := e.cell) rfl hk

/-- An order that ends alone, by what its ending makes of the state and the axis. -/
theorem endsAlone_endedWith (hm : s.memoryWf = true) (hn : e.cell < 480) (hs : e.status = .active)
    (hf : e.kind.moves = false → e.fly = .none) (hb : b.feedback = (s.axis ax).feedback) {n : Nat} (hcode : code.code = n)
    {cmd : Word} (hcmd : b.commanded = cmd) (c : Conds) :
    s.endsAlone ((s.headEnded b e code 0).setAxis ax { b.endedWith e code with seen := c }) ax e n cmd := by
  subst hcode hcmd
  refine ⟨by rw [axis_setAxis_same]; rfl, by rw [axis_setAxis_same]; rfl, by rw [axis_setAxis_same]; rfl, ?_, ?_, rfl, rfl,
    fun k hk => headEnded_other s b e code 0 hk, fun j hj => axis_setAxis_other _ _ hj, rfl⟩
  · rw [axis_setAxis_same]
    exact stood_moving (a := b)
  · rw [← hb]
    exact headEnded_readsEnd hm hn hs hf 0

/-- The pulse that ends the only order of an axis. -/
theorem State.Pulses.exec_ends (h : s.Pulses ax a q b) (hl : a.list = [e]) (hs : e.status = .active)
    (hp : a.ref.phase = .none ∨ e.kind = .reference)
    (hstep : ∀ (l : List Job) c, (({ s with agenda := l } : State).setAxis ax { b with seen := c }).progress ax =
      ((({ s with agenda := l } : State).setAxis ax { b with seen := c }).finishHead ax code |>.settle ax).indexSpan ax) :
    ∃ c, Sys2Proof.Machine.exec (.outputPulse ax r) s =
      .next ((s.headEnded b e code 0).setAxis ax { b.endedWith e code with seen := c }) := by
  refine h.exec (endedWith_undisturbed h.moves h.stays) h.agenda rfl (by simp [State.headEnded, State.ended]) fun l c => ?_
  obtain ⟨c', hc⟩ := endedWith_seen b c e code
  refine ⟨c', ?_⟩
  have hfin : (({ s with agenda := l } : State).setAxis ax { b with seen := c }).finishHead ax code =
      (({ s with agenda := l } : State).headEnded b e code 0).setAxis ax { b.endedWith e code with seen := c' } := by
    rw [finishHead_setAxis (x := { s with agenda := l }) (.inl h.watches) (show ({ b with seen := c } : Axis).list = [e] from h.list.trans hl) hs, ← hc]
    rfl
  have hphase : ({ b.endedWith e code with seen := c' } : Axis).ref.phase = .none := by
    change (b.endedWith e code).ref.phase = .none
    rcases hp with hp | hp
    · exact endedWith_phase (by rw [h.ref]; exact hp)
    · exact endedWith_phase_reference hp
  rw [hstep, hfin, settle_eq_self (.inr (by rw [axis_setAxis_same]; rfl)), indexSpan_setAxis hphase, headEnded_agenda]

/-- The last pulse of a ramp that ends the only order of an axis (R54, R55). -/
theorem State.Pulses.exec_rampEnd (h : s.Pulses ax a q b) (hq : q.moved + 1 = q.length) (hl : a.list = [e])
    (hs : e.status = .active) (hst : a.state = .stopping) (hc : a.stopCause ≠ .fault)
    (hp : a.ref.phase = .none ∨ e.kind = .reference) : ∃ c, Sys2Proof.Machine.exec (.outputPulse ax r) s =
      .next ((s.headEnded b e a.rampEnd 0).setAxis ax { b.endedWith e a.rampEnd with seen := c }) := by
  have hbs : b.state = .stopping := h.state.trans hst
  have hbc : b.stopCause ≠ .fault := by rw [h.pulsed, (pulsed_keeps a).2.1]; exact hc
  have hbr : b.rampEnd = a.rampEnd := by rw [h.pulsed, (pulsed_keeps a).2.2.1]
  refine h.exec_ends hl hs hp fun l c => ?_
  rw [progress_of_not_running (b := { b with seen := c }) (by rw [show ({ b with seen := c } : Axis).state = _ from hbs]; decide),
    arriveIfDue_done (b := { b with seen := c }) (h.done hq), arrive_stopping (b := { b with seen := c }) hbs hbc,
    show ({ b with seen := c } : Axis).rampEnd = a.rampEnd from hbr]

/-- The last pulse of a held ramp that ends on the target or edge (R54, R62, R87). -/
theorem State.Pulses.exec_heldThere (h : s.Pulses ax a q b) (hq : q.moved + 1 = q.length) (hl : a.list = [e])
    (hs : e.status = .active) (hst : a.state = .holding) (hp : a.ref.phase = .none)
    (ht : a.commanded.toInt + a.prof.dir.sign = e.target) : ∃ c, Sys2Proof.Machine.exec (.outputPulse ax r) s =
      .next ((s.headEnded b e (if e.kind = .jog then .limited else .completed) 0).setAxis ax
        { b.endedWith e (if e.kind = .jog then .limited else .completed) with seen := c }) := by
  have hbs : b.state = .holding := h.state.trans hst
  refine h.exec_ends hl hs (Or.inl hp) fun l c => ?_
  rw [progress_of_not_running (b := { b with seen := c }) (by rw [show ({ b with seen := c } : Axis).state = _ from hbs]; decide),
    arriveIfDue_done (b := { b with seen := c }) (h.done hq),
    arrive_holding (b := { b with seen := c }) hbs (show ({ b with seen := c } : Axis).list = [e] from h.list.trans hl),
    if_pos (h.here.2.trans ht)]

/-- The last pulse of a held ramp that ends short of the target (R62). -/
theorem State.Pulses.exec_heldShort (h : s.Pulses ax a q b) (hq : q.moved + 1 = q.length) (hl : a.list = e :: es)
    (hst : a.state = .holding) (hp : a.ref.phase = .none) (ht : a.commanded.toInt + a.prof.dir.sign ≠ e.target) :
    ∃ c, Sys2Proof.Machine.exec (.outputPulse ax r) s =
      .next (s.setAxis ax { b.stood with state := .held, stopCause := .none, seen := c }) := by
  have hbs : b.state = .holding := h.state.trans hst
  have hu : ({ b.stood with state := .held, stopCause := .none } : Axis).undisturbed := by
    refine undisturbed_congr (a := b) ?_ ?_ (stood_prof h.moves).2.2 h.stays
    · exact (show _ = b.stood.setup from rfl).trans (by rw [stood_eq])
    · exact (show _ = b.stood.inputs from rfl).trans (by rw [stood_eq])
  refine h.exec hu h.agenda rfl (by omega) fun l c => ?_
  obtain ⟨c', hc⟩ := stood_withSeen (a := b) (c := c)
  refine ⟨c', ?_⟩
  have hphase : ({ b.stood with seen := c', state := .held, stopCause := .none } : Axis).ref.phase = .none := by
    change b.stood.ref.phase = .none
    rw [stood_eq, ← hp, ← h.ref]
  rw [progress_of_not_running (b := { b with seen := c }) (by rw [show ({ b with seen := c } : Axis).state = _ from hbs]; decide),
    arriveIfDue_done (b := { b with seen := c }) (h.done hq),
    arrive_holding (b := { b with seen := c }) hbs (show ({ b with seen := c } : Axis).list = e :: es from h.list.trans hl),
    if_neg (fun k => ht (h.here.2.symm.trans k)), stand_setAxis (x := { s with agenda := l }) (.inl h.watches), hc, setAxisState_setAxis,
    settle_setAxis_busy AxisState.noConfusion]
  exact indexSpan_setAxis hphase

/-- The last pulse of a fault ramp (R69, R163). -/
theorem State.Pulses.exec_faulted (h : s.Pulses ax a q b) (hq : q.moved + 1 = q.length) (hl : a.list = [])
    (hst : a.state = .stopping) (hc : a.stopCause = .fault) (hp : a.ref.phase = .none) :
    ∃ c, Sys2Proof.Machine.exec (.outputPulse ax r) s = .next (s.setAxis ax { b.toFaulted with seen := c }) := by
  have hbs : b.state = .stopping := h.state.trans hst
  have hbc : b.stopCause = .fault := by rw [h.pulsed, (pulsed_keeps a).2.1]; exact hc
  have hbl : b.list = [] := h.list.trans hl
  have hu : b.toFaulted.undisturbed := by
    refine undisturbed_congr (a := b) ?_ ?_ (stood_prof h.moves).2.2 h.stays
    · exact (show _ = b.stood.setup from rfl).trans (by rw [stood_eq])
    · exact (show _ = b.stood.inputs from rfl).trans (by rw [stood_eq])
  refine h.exec hu h.agenda rfl (by omega) fun l c => ?_
  obtain ⟨c', hs⟩ := stood_withSeen (a := b) (c := c)
  have hf : ({ b with seen := c } : Axis).toFaulted = { b.toFaulted with seen := c' } := by
    unfold Axis.toFaulted
    rw [hs]
  refine ⟨c', ?_⟩
  have hphase : ({ b.toFaulted with seen := c' } : Axis).ref.phase = .none := by
    change b.stood.ref.phase = .none
    rw [stood_eq, ← hp, ← h.ref]
  rw [progress_of_not_running (b := { b with seen := c }) (by rw [show ({ b with seen := c } : Axis).state = _ from hbs]; decide),
    arriveIfDue_done (b := { b with seen := c }) (h.done hq), arrive_fault (b := { b with seen := c }) hbs hbc,
    becomeFaulted_setAxis (x := { s with agenda := l }) (a := { b with seen := c }) h.watches hbl, hf, settle_setAxis_busy AxisState.noConfusion]
  exact indexSpan_setAxis hphase

/-! ### A JOG before its edge (R79) -/

/-- A JOG under way, with its edge report where that is due. -/
def Axis.jogged (b : Axis) : Axis := if b.edgeDecelReached then b.edgeReported else b

theorem edgeDecelReached_jog (hs : b.state = .running) (hl : b.list = e :: es) (hk : e.kind = .jog)
    (hp : b.prof.plan = some q) : b.edgeDecelReached = decide (q.reportAt ≤ q.moved) := by
  simp [Axis.edgeDecelReached, hs, hl, hk, hp]

theorem jogged_seen (b : Axis) (c : Conds) : ({ b with seen := c } : Axis).jogged = { b.jogged with seen := c } := by
  have h : ({ b with seen := c } : Axis).edgeDecelReached = b.edgeDecelReached := rfl
  unfold Axis.jogged
  rw [h]
  split <;> rfl

/-- The edge report changes the state, its cause, the end of the ramp and the phase. -/
theorem jogged_keeps (b : Axis) : b.jogged.list = b.list ∧ b.jogged.commanded = b.commanded ∧
    b.jogged.prof.speedSq = b.prof.speedSq ∧ b.jogged.prof.plan = b.prof.plan ∧ b.jogged.ref = b.ref ∧
    b.jogged.setup = b.setup ∧ b.jogged.inputs = b.inputs ∧ b.jogged.prof.dir = b.prof.dir := by
  unfold Axis.jogged
  split <;> exact ⟨rfl, rfl, rfl, rfl, rfl, rfl, rfl, rfl⟩

/-- A pulse of a JOG short of the end of its plan. -/
theorem State.Pulses.exec_jog (h : s.Pulses ax a q b) (hq : q.moved + 1 < q.length) (hl : a.list = e :: es)
    (hk : e.kind = .jog) (hr : a.prof.pendingReplan = false) (hp : a.ref.phase = .none) :
    ∃ c, Sys2Proof.Machine.exec (.outputPulse ax r) s = .next (s.setAxis ax { b.jogged with seen := c }) := by
  obtain ⟨-, -, -, hplan, href, hset, hinp, hdir⟩ := jogged_keeps b
  refine h.exec (undisturbed_congr hset hinp hdir h.stays) h.agenda rfl (by omega) fun l c => ⟨c, ?_⟩
  have hb : ({ b with seen := c } : Axis).prof.pendingReplan = false := by
    change b.prof.pendingReplan = false
    rw [h.pulsed, pulsed_prof.2.2.1, hr]
  have hbl : ({ b with seen := c } : Axis).list = e :: es := h.list.trans hl
  have hdone : ({ b.jogged with seen := c } : Axis).planDone = false := by
    rw [planDone_eq (a := { b.jogged with seen := c }) (q := { q with moved := q.moved + 1 }) (hplan.trans h.nextPlan)]
    exact decide_eq_false (Nat.not_le.2 hq)
  have hphase : ({ b.jogged with seen := c } : Axis).ref.phase = .none := by
    change b.jogged.ref.phase = .none
    rw [href, h.ref, hp]
  unfold State.progress
  dsimp only
  rw [pendingIfDue_setAxis hb, axis_setAxis_same,
    decideIfDue_of_not_positional (e := e) (by rw [hbl]; rfl) (by rw [hk]; rfl), edgeDecelIfDue_setAxis]
  change (((State.setAxis _ ax ({ b with seen := c } : Axis).jogged).arriveIfDue ax).indexSpan ax) = _
  rw [jogged_seen, arriveIfDue_short hdone, indexSpan_setAxis hphase]

/-! ### What O34 says of the axis afterwards -/

theorem otherAxes_setAxis (s : State) (ax : AxisIx) (b : Axis) : s.otherAxes (s.setAxis ax b) ax :=
  fun _ hj => axis_setAxis_other _ _ hj

/-- Settles O34: one pulse, by what the axis is doing and whether its plan is made to the end. -/
theorem rampsEnd : Obligations.RampsEnd := by
  unfold Obligations.RampsEnd
  intro s ax r a q here hwf hone hquiet hw ha hmv hu hphase hstop hplan hhere hlow hhigh
  have hpulse (hs : a.state ≠ .disabled ∧ a.state ≠ .faulted) : s.Pulses ax a q a.pulsed :=
    ⟨hquiet, hw, ha, hmv, hu, hs, hplan, hhere ▸ hlow, hhere ▸ hhigh, rfl⟩
  have hable {st : AxisState} (hs : a.state = st) (h : st ≠ .disabled ∧ st ≠ .faulted) :
      a.state ≠ .disabled ∧ a.state ≠ .faulted := hs ▸ h
  have hfb : a.pulsed.feedback = (s.axis ax).feedback := by rw [(pulsed_keeps a).2.2.2.2.2.2.2.1, ha]
  refine ⟨fun hq => ⟨fun e hl hst hk hc => ⟨fun hs hcause hre => ?_, fun hs ht => ?_⟩, fun e es hl hs ht => ?_,
    fun hl hs hcause => ?_⟩, fun e es sq hq hl hk hs hr hsq => ?_⟩
  · have h := hpulse (hable hs (by decide))
    obtain ⟨c, ht⟩ := h.exec_rampEnd (r := r) hq hl hst hs hcause (Or.inl hphase)
    obtain ⟨h1, h2⟩ := h.here
    refine ⟨_, ht, endsAlone_endedWith hwf hc hst (fun k => absurd hk (by rw [k]; decide)) hfb ?_ (hhere ▸ h1) c, ?_, ?_⟩
    · rcases hre with hre | hre | hre <;> rw [hre] <;> rfl
    · rw [axis_setAxis_same]
      exact (congrArg BitVec.toInt stood_commanded).trans (h2.trans hhere.symm)
    · rw [axis_setAxis_same]
      exact (stood_prof h.moves).1
  · have h := hpulse (hable hs (by decide))
    obtain ⟨c, ht⟩ := h.exec_heldThere (r := r) hq hl hst hs hphase (hhere ▸ ht)
    obtain ⟨h1, h2⟩ := h.here
    refine ⟨_, ht, endsAlone_endedWith hwf hc hst (fun k => absurd hk (by rw [k]; decide)) hfb ?_ (hhere ▸ h1) c, ?_, ?_⟩
    · split <;> rfl
    · rw [axis_setAxis_same]
      exact (congrArg BitVec.toInt stood_commanded).trans (h2.trans hhere.symm)
    · rw [axis_setAxis_same]
      exact (stood_prof h.moves).1
  · have h := hpulse (hable hs (by decide))
    obtain ⟨c, hx⟩ := h.exec_heldShort (r := r) hq hl hs hphase (hhere ▸ ht)
    refine ⟨_, hx, ?_⟩
    rw [axis_setAxis_same]
    refine ⟨rfl, rfl, ?_, stood_moving (a := a.pulsed), (stood_prof h.moves).1, (stood_prof h.moves).2.1, ?_,
      otherAxes_setAxis s ax _, rfl⟩
    · change a.pulsed.stood.list = _
      rw [stood_eq]
      exact h.list.trans hl
    · exact (congrArg BitVec.toInt stood_commanded).trans (h.here.2.trans hhere.symm)
  · have h := hpulse (hable hs (by decide))
    obtain ⟨c, hx⟩ := h.exec_faulted (r := r) hq hl hs hcause hphase
    refine ⟨_, hx, ?_⟩
    rw [axis_setAxis_same]
    refine ⟨rfl, rfl, rfl, ?_, stood_moving (a := a.pulsed), rfl, ?_, otherAxes_setAxis s ax _, rfl⟩
    · change a.pulsed.stood.list = _
      rw [stood_eq]
      exact h.list.trans hl
    · exact (congrArg BitVec.toInt stood_commanded).trans (h.here.2.trans hhere.symm)
  · have h := hpulse (hable hs (by decide))
    obtain ⟨c, hx⟩ := h.exec_jog (r := r) hq hl hk hr hphase
    obtain ⟨k1, k2, k3, k4, -⟩ := jogged_keeps a.pulsed
    have hedge := edgeDecelReached_jog (h.state.trans hs) (h.list.trans hl) hk h.nextPlan
    refine ⟨_, hx, ?_⟩
    rw [axis_setAxis_same]
    refine ⟨k1.trans (h.list.trans hl), (congrArg BitVec.toInt k2).trans (h.here.2.trans hhere.symm),
      k3.trans ((pulsed_plan hplan).2.1.trans hsq.symm), k4.trans h.nextPlan, fun hm => ?_, fun hm => ?_,
      otherAxes_setAxis s ax _, rfl⟩
    · have hj : a.pulsed.jogged = a.pulsed := by
        unfold Axis.jogged
        rw [hedge, if_neg (by simpa using hm)]
      have hd : a.rampingDown = false := by simp [Axis.rampingDown, hs, hstop]
      rw [hj]
      exact ⟨h.state.trans hs, (pulsed_plan hplan).2.2.2.trans (by rw [hd]; rfl)⟩
    · have hj : a.pulsed.jogged = a.pulsed.edgeReported := by
        unfold Axis.jogged
        rw [hedge, if_pos (by simpa using hm)]
      rw [hj]
      exact ⟨rfl, rfl, rfl, rfl⟩

end Sys2Proof.Machine
end

section
/-!
Heads planned and replanned, on one axis of a state (R57, R76 to R80, R83 to R85): the plan from the present speed and
position, and the flying decision or the edge report that it calls for at once.
-/

open Sys2Proof Sys2Proof.Machine

namespace Sys2Proof.Machine

variable {s t x y : State} {ax : AxisIx} {a b : Axis} {e n : Entry} {es more : List Entry} {a0 : Int} {w : Nat}

/-! ### The plan made (R76, R83) -/

/-- A plan with a way to go makes pulses. -/
theorem planned_not_done (h : 0 < distanceTo a.commanded e.target e.dir) : (a.planned a0 e w).planDone = false := by
  obtain ⟨hl, hm, -⟩ := plan_start (orderRates a.setup e) a.prof.speedSq a0 (distanceTo a.commanded e.target e.dir)
    (a.targetSpeed e) w (e.opts.fly && e.kind.positional)
  rw [planDone_eq (a := a.planned a0 e w) (q := a.headPlan a0 e w) rfl]
  refine decide_eq_false ?_
  unfold Axis.headPlan
  rw [hl, hm]
  exact Nat.not_le.2 h

/-- What a plan starts from and ends at. -/
theorem headPlan_facts (a : Axis) (a0 : Int) (e : Entry) (w : Nat) :
    (a.headPlan a0 e w).moved = 0 ∧ (a.headPlan a0 e w).startSq = a.prof.speedSq ∧
      (a.headPlan a0 e w).length = distanceTo a.commanded e.target e.dir ∧
      (a.headPlan a0 e w).targetSpeed = a.targetSpeed e ∧ (a.headPlan a0 e w).endSpeed = w := by
  obtain ⟨h1, h2, h3, h4, -, h6⟩ := plan_start (orderRates a.setup e) a.prof.speedSq a0
    (distanceTo a.commanded e.target e.dir) (a.targetSpeed e) w (e.opts.fly && e.kind.positional)
  exact ⟨h2, h3, h1, h6, h4⟩

/-- A plan with a way to go sets the acceleration that it begins with. -/
theorem planned_eq (h : 0 < distanceTo a.commanded e.target e.dir) : a.planned a0 e w = { a with prof := { a.prof with
    plan := some (a.headPlan a0 e w), pendingReplan := false, accel := (a.headPlan a0 e w).accelAt 0
    phase := (a.headPlan a0 e w).phaseAt 0 } } := by
  unfold Axis.planned
  rw [if_neg (by rw [(headPlan_facts a a0 e w).2.2.1]; omega)]

/-! ### The flying decision that a plan calls for (R57, R85) -/

/-- A plan calls for the flying decision at once where its commit point is its own position. -/
def Axis.decidesAtOnce (a : Axis) (a0 : Int) (e : Entry) (w : Nat) : Prop :=
  e.opts.fly = true ∧ e.decided = false ∧ (a.headPlan a0 e w).commitAt = some 0

theorem planned_commitReached (hr : a.state = .running) (hl : a.list = e :: es) (hk : e.kind.positional = true)
    (h : a.decidesAtOnce a0 e w) : (a.planned a0 e w).commitReached = true := by
  obtain ⟨hf, hd, hc⟩ := h
  refine commitReached_true (q := a.headPlan a0 e w) hr hl hk hf hd rfl ?_
  rw [hc, (headPlan_facts a a0 e w).1]

theorem planned_not_commitReached (hl : a.list = e :: es) (h : ¬ a.decidesAtOnce a0 e w) :
    (a.planned a0 e w).commitReached = false := by
  refine commitReached_false (q := a.headPlan a0 e w) hl rfl ?_
  by_contra hn
  simp only [not_or, not_forall, Bool.not_eq_false, Bool.not_eq_true] at hn
  obtain ⟨hf, hd, k, hk, hle⟩ := hn
  rw [(headPlan_facts a a0 e w).1] at hle
  exact h ⟨hf, hd, by rw [hk, Nat.eq_zero_of_not_pos hle]⟩

/-- A flying decision taken on an axis that moves with the acceleration `a0` (R57, R80). -/
theorem decideFly_takes_from (hl : a.list = e :: n :: more) (hf : x.flyFails a.setup e (some n) e.target = none) :
    (x.setAxis ax a).decideFly ax a0 = ({ x with gates := x.claimedGates n } : State).setAxis ax
      (Axis.planned { a with list := flownList e n more } a0 e (a.junctionSpeed e n (a.targetSpeed e))) := by
  have hf' : (x.setAxis ax a).flyFails a.setup e (some n) e.target = none := (flyFails_congr rfl).trans hf
  unfold State.decideFly
  dsimp only
  rw [axis_setAxis_same, hl]
  dsimp only [List.head?_cons]
  rw [hf']
  dsimp only
  rw [claimSecond_eq, show ({ x.setAxis ax a with gates := (x.setAxis ax a).claimedGates n } : State)
    = ({ x with gates := x.claimedGates n } : State).setAxis ax a from rfl, updAxis_setAxis, planHead_setAxis]
  rfl

theorem not_jog_of_positional {k : MotionKind} (h : k.positional = true) : k ≠ .jog := by
  rintro rfl
  cases h

theorem edgeDecelIfDue_positional (hl : a.list = e :: es) (hk : e.kind.positional = true) :
    (x.setAxis ax a).edgeDecelIfDue ax = x.setAxis ax a := by
  rw [edgeDecelIfDue_setAxis, edgeDecelReached_of_kind (e := e) (by rw [hl]; rfl) (not_jog_of_positional hk)]
  rfl

/-! ### A plan with what it calls for at once (R57, R79, R85) -/

theorem planAndDecide_undue (hl : a.list = e :: es) (hk : e.kind.positional = true) (h : ¬ a.decidesAtOnce a0 e w) :
    (x.setAxis ax a).planAndDecide ax a0 e w = x.setAxis ax (a.planned a0 e w) := by
  unfold State.planAndDecide
  rw [planHead_setAxis, decideIfDue_undue (planned_not_commitReached hl h),
    edgeDecelIfDue_positional (a := a.planned a0 e w) hl hk]

theorem planAndDecide_declines {reason : Nat} (hr : a.state = .running) (hl : a.list = e :: es)
    (hk : e.kind.positional = true) (h : a.decidesAtOnce a0 e w)
    (hf : x.flyFails a.setup e es.head? e.target = some reason) :
    (x.setAxis ax a).planAndDecide ax a0 e w = x.setAxis ax
      (Axis.planned { a with list := { e with fly := .declined reason, decided := true } :: es } a0 e w) := by
  unfold State.planAndDecide
  rw [planHead_setAxis, decideIfDue_due (planned_commitReached hr hl hk h),
    decideFly_declines (a := a.planned a0 e w) hl hf]
  exact edgeDecelIfDue_positional (e := { e with fly := .declined reason, decided := true }) rfl hk

theorem planAndDecide_takes (hr : a.state = .running) (hl : a.list = e :: n :: more)
    (hk : e.kind.positional = true) (h : a.decidesAtOnce a0 e w)
    (hf : x.flyFails a.setup e (some n) e.target = none) :
    (x.setAxis ax a).planAndDecide ax a0 e w = ({ x with gates := x.claimedGates n } : State).setAxis ax
      (Axis.planned { a with list := flownList e n more } a0 e (a.junctionSpeed e n (a.targetSpeed e))) := by
  unfold State.planAndDecide
  rw [planHead_setAxis, decideIfDue_due (planned_commitReached hr hl hk h),
    decideFly_takes_from (a := a.planned a0 e w) hl hf]
  exact edgeDecelIfDue_positional (e := { e with fly := .taken, decided := true }) rfl hk

theorem planAndDecide_jog (hl : a.list = e :: es) (hk : e.kind = .jog) :
    (x.setAxis ax a).planAndDecide ax a0 e w = x.setAxis ax (a.planned a0 e w).jogged := by
  unfold State.planAndDecide
  rw [planHead_setAxis, decideIfDue_of_not_positional (a := a.planned a0 e w) (e := e)
    (by rw [show (a.planned a0 e w).list = e :: es from hl]; rfl) (by rw [hk]; rfl), edgeDecelIfDue_setAxis]
  rfl

/-! ### Replans (R83 to R85) -/

/-- In LINEAR form a running move can come down to a speed at its target as R85 has it. -/
theorem canReach_linear {r : Rates} (hf : r.form = .linear) (u : Nat) (a0 : Int) (l w : Nat) :
    r.canReach u a0 l w = true ↔ u ≤ sqOf w ∨ linearLen u (sqOf w) r.dec ≤ l := by
  unfold Rates.canReach Rates.effSq Rates.ramp
  simp only [hf, Rates.effSq, Bool.or_eq_true, Bool.and_eq_true, decide_eq_true_eq]
  by_cases h : u ≤ sqOf w
  · simp [h]
  · simp only [h, false_and, false_or, if_false]
    rfl

theorem replan_unbound (hl : a.list = e :: es) (h : unboundNext es) :
    (x.setAxis ax a).replan ax a0 = (x.setAxis ax a).planAndDecide ax a0 e a.setup.floor := by
  unfold State.replan
  dsimp only
  rw [axis_setAxis_same, hl]
  cases es with
  | nil => rfl
  | cons n more =>
      dsimp only [List.head?_cons]
      rw [if_neg (by rw [h n more rfl]; decide)]

/-- The speed that a bound pair is to have at its junction, from the one it had (R85). -/
def Axis.newJunction (a : Axis) (e n : Entry) : Nat :=
  a.junctionSpeed e n (match a.prof.plan with
    | some p => p.endSpeed
    | none => 0)

/-- A bound pair keeps its binding in a replan where the new junction speed can be met (R85). -/
def Axis.keepsPair (a : Axis) (a0 : Int) (e n : Entry) : Bool :=
  a.setup.floor ≤ a.newJunction e n && (orderRates a.setup e).canReach a.prof.speedSq a0
    (distanceTo a.commanded e.target e.dir) (a.newJunction e n)

theorem replan_pair (hl : a.list = e :: n :: more) (hb : n.bound = true) : (x.setAxis ax a).replan ax a0 =
    if a.keepsPair a0 e n then x.setAxis ax (a.planned a0 e (a.newJunction e n))
    else x.setAxis ax (Axis.planned { a with list := unbindList (e :: n :: more) } a0 e a.setup.floor) := by
  unfold State.replan
  dsimp only
  rw [axis_setAxis_same, hl]
  dsimp only [List.head?_cons]
  rw [if_pos hb]
  refine if_congr Iff.rfl planHead_setAxis ?_
  rw [dropBinding_eq_unbind, hl]
  exact planHead_setAxis

end Sys2Proof.Machine
end

section
/-!
OVERRIDE and SET_SPEED on a RUNNING move (O28; R60, R82 to R86): the replan at once, the replan deferred, and the pulse
that makes a deferred one.
-/

open Sys2Proof Sys2Proof.Machine

namespace Sys2Proof.Machine

variable {s t x y : State} {r : Race} {ax : AxisIx} {a b : Axis} {e n : Entry} {es more : List Entry} {a0 : Int}
  {w : Nat} {q : Plan}

/-! ### The replan asked for (R82, R84, R86) -/

theorem setOverride_eq (s : State) (ax : AxisIx) (k : Nat) : s.setOverride ax k =
    (s.setAxis ax { s.axis ax with prof := { (s.axis ax).prof with override := k } }).replanIfRunning ax := rfl

theorem newSpeed_eq (hl : (s.axis ax).list = e :: es) (v : Nat) : s.newSpeed ax v =
    (s.setAxis ax { s.axis ax with list := { e with newSpeed := some v } :: es }).replanIfRunning ax := by
  unfold State.newSpeed
  conv_lhs => rw [← setAxis_axis (x := s) (ax := ax)]
  rw [updHead_setAxis _ hl]

theorem replanIfRunning_idle (h : a.state ≠ .running ∨ a.headMoves = false) :
    (x.setAxis ax a).replanIfRunning ax = x.setAxis ax a := by
  unfold State.replanIfRunning
  rw [axis_setAxis_same]
  refine if_neg ?_
  rcases h with h | h <;> simp [h]

/-- A request for a replan that meets a RUNNING move with a plan. -/
theorem replanIfRunning_move (hs : a.state = .running) (hl : a.list = e :: es) (hk : e.kind.moves = true)
    (hp : a.prof.plan = some q) : (x.setAxis ax a).replanIfRunning ax =
      State.arriveIfDue (if e.opts.smooth && q.rampUnderWay
        then x.setAxis ax { a with prof := { a.prof with pendingReplan := true } }
        else (x.setAxis ax a).replan ax a.prof.accel) ax := by
  have hm : a.headMoves = true := by simp [Axis.headMoves, hl, hk]
  unfold State.replanIfRunning
  rw [axis_setAxis_same, if_pos (by simp [hs, hm])]
  unfold State.replanRequest
  dsimp only
  rw [axis_setAxis_same, hl, hp]
  dsimp only [List.head?_cons]
  congr 1
  refine if_congr Iff.rfl ?_ rfl
  unfold State.updProf
  rw [updAxis_setAxis, ← hl, ← hp]

/-! ### What a replan leaves (R83, R85) -/

/-- A replan of the head: the axis has a new plan, and what the decision it called for left of the list. -/
theorem replanned_facts {g : Vector Bool 16} {l : List Entry} (hd : 0 < distanceTo b.commanded e.target e.dir)
    (ht : t = ({ s with gates := g } : State).setAxis ax (Axis.planned { b with list := l } a0 e w)) :
    s.otherAxes t ax ∧ (b.headPlan a0 e w).moved = 0 ∧ (b.headPlan a0 e w).startSq = b.prof.speedSq ∧
      (b.headPlan a0 e w).length = distanceTo b.commanded e.target e.dir ∧
      (b.headPlan a0 e w).targetSpeed = b.targetSpeed e ∧ (b.headPlan a0 e w).endSpeed = w ∧
      t.axis ax = { b with
        list := (t.axis ax).list
        prof := { b.prof with
          plan := some (b.headPlan a0 e w), pendingReplan := false, accel := (b.headPlan a0 e w).accelAt 0
          phase := (b.headPlan a0 e w).phaseAt 0 } } ∧
      (t.axis ax).list = l ∧ t = { s with gates := g, axes := t.axes } := by
  have hax : t.axis ax = Axis.planned { b with list := l } a0 e w := by rw [ht, axis_setAxis_same]
  obtain ⟨h1, h2, h3, h4, h5⟩ := headPlan_facts b a0 e w
  refine ⟨fun j hj => ?_, h1, h2, h3, h4, h5, ?_, by rw [hax]; rfl, by rw [ht]; rfl⟩
  · rw [ht]
    exact axis_setAxis_other _ _ hj
  · rw [hax, planned_eq (a := { b with list := l }) hd]
    rfl

/-- Arrival is not due after a replan with a way to go. -/
theorem arriveIfDue_planned {l : List Entry} (hd : 0 < distanceTo b.commanded e.target e.dir) :
    (x.setAxis ax (Axis.planned { b with list := l } a0 e w)).arriveIfDue ax =
      x.setAxis ax (Axis.planned { b with list := l } a0 e w) :=
  arriveIfDue_short (planned_not_done (a := { b with list := l }) hd)

/-- The outcomes of a replan of a RUNNING move: what its list and the gates are afterwards, and the end speed of the
plan (R57, R60, R85). -/
inductive Replans (s : State) (b : Axis) (e : Entry) (es : List Entry) (a0 : Int) : Vector Bool 16 → List Entry → Nat → Prop
  /-- No decision is called for. -/
  | onward (hu : unboundNext es) (h : ¬ b.decidesAtOnce a0 e b.setup.floor) : Replans s b e es a0 s.gates (e :: es) b.setup.floor
  /-- The flying decision declines. -/
  | declined (hu : unboundNext es) (h : b.decidesAtOnce a0 e b.setup.floor) (reason : Nat)
      (hf : s.flyFails b.setup e es.head? e.target = some reason) :
      Replans s b e es a0 s.gates ({ e with fly := .declined reason, decided := true } :: es) b.setup.floor
  /-- The flying decision binds the second entry. -/
  | taken (hu : unboundNext es) (h : b.decidesAtOnce a0 e b.setup.floor) (n : Entry) (more : List Entry)
      (hes : es = n :: more) (hf : s.flyFails b.setup e (some n) e.target = none) :
      Replans s b e es a0 (s.claimedGates n) (flownList e n more) (b.junctionSpeed e n (b.targetSpeed e))
  /-- A bound pair keeps its binding. -/
  | kept (n : Entry) (more : List Entry) (hes : es = n :: more) (hb : n.bound = true) (h : b.keepsPair a0 e n = true) :
      Replans s b e es a0 s.gates (e :: es) (b.newJunction e n)
  /-- A bound pair loses its binding. -/
  | dropped (n : Entry) (more : List Entry) (hes : es = n :: more) (hb : n.bound = true)
      (h : b.keepsPair a0 e n = false) : Replans s b e es a0 s.gates (unbindList (e :: es)) b.setup.floor

/-- Every replan of a RUNNING move has one of these outcomes. -/
theorem replan_outcome (hr : b.state = .running) (hl : b.list = e :: es) (hk : e.kind.positional = true) :
    ∃ g l w, Replans s b e es a0 g l w ∧ (s.setAxis ax b).replan ax a0 =
      ({ s with gates := g } : State).setAxis ax (Axis.planned { b with list := l } a0 e w) := by
  have hself : { b with list := e :: es } = b := by rw [← hl]
  by_cases hu : unboundNext es
  · rw [replan_unbound hl hu]
    by_cases hd : b.decidesAtOnce a0 e b.setup.floor
    · cases hf : s.flyFails b.setup e es.head? e.target with
      | some reason => exact ⟨_, _, _, .declined hu hd reason hf, planAndDecide_declines hr hl hk hd hf⟩
      | none =>
          cases es with
          | nil => cases hf
          | cons n more => exact ⟨_, _, _, .taken hu hd n more rfl hf, planAndDecide_takes hr hl hk hd hf⟩
    · refine ⟨_, _, _, .onward hu hd, ?_⟩
      rw [hself]
      exact planAndDecide_undue hl hk hd
  · unfold unboundNext at hu
    simp only [not_forall, Bool.not_eq_false] at hu
    obtain ⟨n, more, rfl, hb⟩ := hu
    rw [replan_pair hl hb]
    cases h : b.keepsPair a0 e n with
    | true =>
        refine ⟨_, _, _, .kept n more rfl hb h, ?_⟩
        rw [hself]
        rfl
    | false => exact ⟨_, _, _, .dropped n more rfl hb h, rfl⟩

theorem arriveIfDue_replanned (hr : b.state = .running) (hl : b.list = e :: es) (hk : e.kind.positional = true)
    (hd : 0 < distanceTo b.commanded e.target e.dir) : ∃ g l w, Replans s b e es a0 g l w ∧
      ((s.setAxis ax b).replan ax a0).arriveIfDue ax =
        ({ s with gates := g } : State).setAxis ax (Axis.planned { b with list := l } a0 e w) := by
  obtain ⟨g, l, w, h, hx⟩ := replan_outcome (s := s) (ax := ax) (a0 := a0) hr hl hk
  exact ⟨g, l, w, h, by rw [hx, arriveIfDue_planned hd]⟩

/-- Whether a bound pair of a LINEAR move keeps its binding, in the words of R85. -/
theorem keepsPair_linear (hk : e.kind.moves = true) (hs : e.opts.smooth = false) (hp : b.prof.plan = some q) :
    b.newJunction e n = b.junctionSpeed e n q.endSpeed ∧ (b.keepsPair a0 e n = true ↔
      b.setup.floor ≤ b.junctionSpeed e n q.endSpeed ∧ (b.prof.speedSq ≤ sqOf (b.junctionSpeed e n q.endSpeed) ∨
        linearLen b.prof.speedSq (sqOf (b.junctionSpeed e n q.endSpeed)) (rateOr e.params.p4 b.setup.decel) ≤
          distanceTo b.commanded e.target e.dir)) := by
  have hj : b.newJunction e n = b.junctionSpeed e n q.endSpeed := by
    unfold Axis.newJunction
    rw [hp]
  obtain ⟨hf, -, hdec⟩ := orderRates_linear b.setup hk hs
  refine ⟨hj, ?_⟩
  unfold Axis.keepsPair
  rw [Bool.and_eq_true, decide_eq_true_eq, canReach_linear hf, hj, hdec]

/-! ### The pulse that makes a deferred replan (R84) -/

/-- The axis after the pulse: its pending replan made, where the acceleration of its plan has returned to zero. -/
def Axis.replannedThere (b : Axis) (q : Plan) (e : Entry) : Axis :=
  if q.betweenRamps then b.planned 0 e b.setup.floor else b

/-- Nothing else is due of a move without a decision to take, short of the end of its plan. -/
theorem progress_of_pending (hl : b.list = e :: es) (hk : e.kind.positional = true) (hc : b.commitReached = false)
    (hp : b.planDone = false) (hf : b.ref.phase = .none)
    (h : (x.setAxis ax a).pendingIfDue ax = x.setAxis ax b) : (x.setAxis ax a).progress ax = x.setAxis ax b := by
  unfold State.progress
  dsimp only
  rw [h, axis_setAxis_same, decideIfDue_undue hc, edgeDecelIfDue_positional hl hk, arriveIfDue_short hp,
    indexSpan_setAxis hf]

theorem pendingIfDue_due (hr : a.state = .running) (hl : a.list = e :: es) (hk : e.kind.positional = true)
    (hd : e.opts.fly = false ∨ e.decided = true) (hu : unboundNext es) (hpd : a.prof.pendingReplan = true)
    (hp : a.prof.plan = some q) : (x.setAxis ax a).pendingIfDue ax = x.setAxis ax (a.replannedThere q e) := by
  have hundue : ¬ Axis.decidesAtOnce { a with prof := { a.prof with pendingReplan := false } } 0 e a.setup.floor := by
    rintro ⟨h1, h2, -⟩
    rcases hd with hd | hd
    · rw [h1] at hd; cases hd
    · rw [h2] at hd; cases hd
  unfold State.pendingIfDue Axis.replannedThere State.updProf
  dsimp only
  rw [axis_setAxis_same, hp]
  dsimp only
  rw [hr, hpd]
  simp only [decide_true, Bool.true_and]
  split
  · rw [updAxis_setAxis, replan_unbound (a := { a with prof := { a.prof with pendingReplan := false } }) hl hu,
      planAndDecide_undue (a := { a with prof := { a.prof with pendingReplan := false } }) hl hk hundue]
    rfl
  · rfl

theorem State.Pulses.exec_pending (h : s.Pulses ax a q b) (hr : a.state = .running) (hl : a.list = e :: es)
    (hk : e.kind.positional = true) (hd : e.opts.fly = false ∨ e.decided = true) (hu : unboundNext es)
    (hf : a.ref.phase = .none) (hpd : a.prof.pendingReplan = true) (hq : q.moved + 1 < q.length)
    (hrem : 0 < distanceTo b.commanded e.target e.dir) : ∃ c, Sys2Proof.Machine.exec (.outputPulse ax r) s =
      .next (s.setAxis ax { b.replannedThere { q with moved := q.moved + 1 } e with seen := c }) := by
  have hb : (b.replannedThere { q with moved := q.moved + 1 } e).undisturbed := by
    unfold Axis.replannedThere
    split
    · exact undisturbed_congr (a := b) rfl rfl rfl h.stays
    · exact h.stays
  refine h.exec hb h.agenda rfl (by omega) fun l c => ⟨c, ?_⟩
  have hbl : b.list = e :: es := h.list.trans hl
  have hbp : b.prof.pendingReplan = true := by rw [h.pulsed, pulsed_prof.2.2.1, hpd]
  have hpend := pendingIfDue_due (x := { s with agenda := l }) (ax := ax) (a := { b with seen := c })
    (h.state.trans hr) hbl hk hd hu hbp h.nextPlan
  have hseen : ({ b with seen := c } : Axis).replannedThere { q with moved := q.moved + 1 } e =
      { b.replannedThere { q with moved := q.moved + 1 } e with seen := c } := by
    unfold Axis.replannedThere
    split <;> rfl
  have hundue : ¬ b.decidesAtOnce 0 e b.setup.floor := by
    rintro ⟨h1, h2, -⟩
    rcases hd with hd | hd
    · rw [h1] at hd; cases hd
    · rw [h2] at hd; cases hd
  rw [hseen] at hpend
  refine progress_of_pending (e := e) (es := es) ?_ hk ?_ ?_ ?_ hpend
  · unfold Axis.replannedThere
    split <;> exact hbl
  · change (b.replannedThere _ e).commitReached = false
    unfold Axis.replannedThere
    split
    · exact planned_not_commitReached hbl hundue
    · exact commitReached_false hbl h.nextPlan (hd.imp_right Or.inl)
  · change (b.replannedThere _ e).planDone = false
    unfold Axis.replannedThere
    split
    · exact planned_not_done hrem
    · exact h.short hq
  · change (b.replannedThere _ e).ref.phase = .none
    unfold Axis.replannedThere
    split <;> exact (congrArg _ h.ref).trans hf

/-- Before the end of its first ramp a plan is not between its ramps; at its end it is (R84). -/
theorem betweenRamps_first {q : Plan} (hl : q.moved < q.length) :
    (q.moved < q.first.len → q.betweenRamps = false) ∧ (q.moved = q.first.len → q.betweenRamps = true) := by
  refine ⟨fun h => ?_, fun h => ?_⟩
  · have hne : q.moved ≠ q.first.len := Nat.ne_of_lt h
    simp [Plan.betweenRamps, Plan.rampUnderWay, h, hne]
  · unfold Plan.betweenRamps
    rw [decide_eq_true hl, beq_iff_eq.2 h]
    rfl

end Sys2Proof.Machine
end

section
/-!
The statement on replans (O28), from the outcomes of a replan of a RUNNING move.
-/

open Sys2Proof Sys2Proof.Machine

namespace Sys2Proof.Machine

variable {s t x y : State} {r : Race} {ax : AxisIx} {a b : Axis} {e e' n : Entry} {es more : List Entry} {a0 : Int}
  {w : Nat} {q : Plan}

/-- The fly conditions ask of the running order its direction alone (R58). -/
theorem flyFails_dir {st : AxisSetup} {o : Option Entry} {base : Int} (h : e'.dir = e.dir) :
    s.flyFails st e' o base = s.flyFails st e o base := by
  unfold State.flyFails
  rw [h]

/-- Without a binding, a replan keeps the list but for the flying decision that it calls for (R57, R85). -/
theorem Replans.unbound {g : Vector Bool 16} {l : List Entry} (h : Replans s b e es a0 g l w) (hu : unboundNext es) :
    (e.opts.fly = false ∨ e.decided = true → g = s.gates ∧ l = e :: es ∧ w = b.setup.floor) ∧
      (∀ reason, e.opts.fly = true → e.decided = false → s.flyFails b.setup e es.head? e.target = some reason →
        g = s.gates ∧ w = b.setup.floor ∧ l = (if (b.headPlan a0 e w).commitAt = some 0
          then { e with fly := .declined reason, decided := true } else e) :: es) := by
  have hno {p : Prop} (hd : b.decidesAtOnce a0 e b.setup.floor) (h : e.opts.fly = false ∨ e.decided = true) : p := by
    obtain ⟨h1, h2, -⟩ := hd
    rcases h with h | h
    · rw [h1] at h; cases h
    · rw [h2] at h; cases h
  have hbound {p : Prop} {n : Entry} {more : List Entry} (hes : es = n :: more) (hb : n.bound = true) : p := by
    rw [hu n more hes] at hb
    cases hb
  cases h with
  | onward _ hd =>
      refine ⟨fun _ => ⟨rfl, rfl, rfl⟩, fun reason hf hdec _ => ⟨rfl, rfl, ?_⟩⟩
      rw [if_neg fun hc => hd ⟨hf, hdec, hc⟩]
  | declined _ hd reason hf =>
      refine ⟨hno hd, fun reason' _ _ hf' => ⟨rfl, rfl, ?_⟩⟩
      rw [if_pos hd.2.2, Option.some.inj (hf.symm.trans hf')]
  | taken _ hd n more hes hf =>
      refine ⟨hno hd, fun reason' _ _ hf' => ?_⟩
      rw [hes, List.head?_cons, hf] at hf'
      cases hf'
  | kept n more hes hb _ => exact hbound hes hb
  | dropped n more hes hb _ => exact hbound hes hb

/-- A replan of a bound pair keeps the binding with a new junction, or drops it (R60, R85). -/
theorem Replans.pair {g : Vector Bool 16} {l : List Entry} (h : Replans s b e (n :: more) a0 g l w)
    (hb : n.bound = true) : g = s.gates ∧
      (b.keepsPair a0 e n = true → l = e :: n :: more ∧ w = b.newJunction e n) ∧
      (b.keepsPair a0 e n = false → l = { e with fly := .declined 5, decided := true } :: { n with bound := false } :: more ∧
        w = b.setup.floor) := by
  have hno {p : Prop} (hu : unboundNext (n :: more)) : p := by
    rw [hu n more rfl] at hb
    cases hb
  cases h with
  | onward hu _ => exact hno hu
  | declined hu _ _ _ => exact hno hu
  | taken hu _ _ _ _ _ => exact hno hu
  | kept _ _ hes _ hk =>
      cases hes
      exact ⟨rfl, fun _ => ⟨rfl, rfl⟩, fun hk' => by rw [hk] at hk'; cases hk'⟩
  | dropped _ _ hes _ hk =>
      cases hes
      exact ⟨rfl, fun hk' => (by rw [hk] at hk'; cases hk'), fun _ => ⟨unbindList_bound hb, rfl⟩⟩

/-- What an OVERRIDE and a SET_SPEED action make of an axis with a RUNNING move before they ask for a replan. -/
theorem request_eq {p : Params} {v percent : Nat} (hl : (s.axis ax).list = e :: es)
    (h : (s.carryOut .override (.axis ax) p = .done t ∧ percent = p.p1.toNat ∧ e' = e) ∨
      (s.perform (.setSpeed ax v) = t ∧ percent = (s.axis ax).prof.override ∧ e' = { e with newSpeed := some v })) :
    (t = (s.setAxis ax { s.axis ax with prof := { (s.axis ax).prof with override := percent }
                                        list := e' :: es }).replanIfRunning ax) ∧
      e'.kind = e.kind ∧ e'.opts = e.opts ∧ e'.decided = e.decided ∧ e'.target = e.target ∧ e'.dir = e.dir ∧
      e'.params = e.params := by
  rcases h with ⟨ht, rfl, rfl⟩ | ⟨rfl, rfl, rfl⟩
  · refine ⟨?_, rfl, rfl, rfl, rfl, rfl, rfl⟩
    rw [← hl, ← Carried.done.inj ht]
    exact setOverride_eq s ax p.p1.toNat
  · exact ⟨newSpeed_eq hl v, rfl, rfl, rfl, rfl, rfl, rfl⟩

/-- Settles O28: a request either defers the replan or has one of its outcomes, and a pulse makes a deferred one only
between the ramps. -/
theorem overrideReplans : Obligations.OverrideReplans := by
  unfold Obligations.OverrideReplans
  refine ⟨fun s ax p => ⟨_, rfl⟩, ?_, fun s ax v e es hl hs => ?_, ?_⟩
  · intro s t ax p v percent e e' es a b q room ha hs hl hk hp hq hroom hpos hreq hb
    subst ha
    obtain ⟨ht, hkind, hopts, hdec, htgt, hdir, hpar⟩ := request_eq hl hreq
    rw [← hb] at ht
    have hbs : b.state = .running := by rw [hb]; exact hs
    have hbl : b.list = e' :: es := by rw [hb]
    have hbp : b.prof.plan = some q := by rw [hb]; exact hp
    have hbst : b.setup = (s.axis ax).setup := by rw [hb]
    have hbv : b.prof.speedSq = (s.axis ax).prof.speedSq := by rw [hb]
    have hbk : e'.kind.positional = true := by rw [hkind]; exact hk
    have hdist : distanceTo b.commanded e'.target e'.dir = room.toNat := by
      rw [hb, htgt, hdir, hroom]
      rfl
    have hd : 0 < distanceTo b.commanded e'.target e'.dir := by rw [hdist]; omega
    rw [replanIfRunning_move hbs hbl (positional_moves hbk) hbp, hopts] at ht
    have hother : s.otherAxes t ax ∧ (e.opts.smooth = true → q.rampUnderWay = true → t = { s with axes := t.axes } ∧
        t.axis ax = { b with prof := { b.prof with pendingReplan := true } }) ∧
        (e.opts.smooth = false ∨ q.rampUnderWay = false → ∃ g l w, Replans s b e' es b.prof.accel g l w ∧
          t = ({ s with gates := g } : State).setAxis ax (Axis.planned { b with list := l } b.prof.accel e' w)) := by
      by_cases hc : e.opts.smooth = true ∧ q.rampUnderWay = true
      · have hshort : ({ b with prof := { b.prof with pendingReplan := true } } : Axis).planDone = false := by
          rw [planDone_eq (a := { b with prof := { b.prof with pendingReplan := true } }) hbp]
          exact decide_eq_false (Nat.not_le.2 hq)
        rw [if_pos (by rw [hc.1, hc.2]; rfl), arriveIfDue_short hshort] at ht
        refine ⟨ht ▸ otherAxes_setAxis s ax _, fun _ _ => ⟨by rw [ht]; rfl, by rw [ht, axis_setAxis_same]⟩, fun h => ?_⟩
        rcases h with h | h
        · rw [hc.1] at h; cases h
        · rw [hc.2] at h; cases h
      · rw [if_neg (by simpa using hc)] at ht
        obtain ⟨g, l, w, hout, hx⟩ := arriveIfDue_replanned (s := s) (ax := ax) (a0 := b.prof.accel) hbs hbl hbk hd
        rw [hx] at ht
        exact ⟨(replanned_facts hd ht).1, fun h1 h2 => absurd ⟨h1, h2⟩ hc, fun _ => ⟨g, l, w, hout, ht⟩⟩
    refine ⟨hother.1, hother.2.1, fun hnow => ?_⟩
    obtain ⟨g, l, w, hout, ht⟩ := hother.2.2 hnow
    obtain ⟨-, h1, h2, h3, h4, h5, h6, h7, h8⟩ := replanned_facts hd ht
    refine ⟨b.headPlan b.prof.accel e' w, by rw [h6], h1, h2.trans hbv, h3.trans hdist, h4, h6, fun hu => ?_, ?_⟩
    · obtain ⟨hc1, hc2⟩ := hout.unbound hu
      refine ⟨fun hfd => ?_, fun reason hf hd' hreason => ?_⟩
      · obtain ⟨rfl, rfl, rfl⟩ := hc1 (by rw [hopts, hdec]; exact hfd)
        exact ⟨h8, h7, h5.trans (by rw [hbst])⟩
      · obtain ⟨rfl, rfl, hlist⟩ := hc2 reason (by rw [hopts]; exact hf) (by rw [hdec]; exact hd')
          (by rw [flyFails_dir hdir, hbst, htgt]; exact hreason)
        exact ⟨h8, h5.trans (by rw [hbst]), h7.trans hlist⟩
    · intro n more junction hes hbound hsm hj
      subst hes
      obtain ⟨rfl, hkept, hdropped⟩ := hout.pair hbound
      obtain ⟨hjun, hiff⟩ := keepsPair_linear (n := n) (a0 := b.prof.accel) (positional_moves hbk)
        (show e'.opts.smooth = false by rw [hopts]; exact hsm) hbp
      rw [← hj, hbst, hbv, hpar, hdist] at hiff
      refine ⟨h8, fun hc => ?_, fun hc => ?_⟩
      · obtain ⟨rfl, rfl⟩ := hkept (hiff.2 hc)
        exact ⟨h7, h5.trans (hjun.trans hj.symm)⟩
      · obtain ⟨rfl, rfl⟩ := hdropped (by rw [← Bool.not_eq_true]; exact fun k => hc (hiff.1 k))
        exact ⟨h7, h5.trans (by rw [hbst])⟩
  · refine ⟨_, rfl, ?_⟩
    have hx : s.perform (.setSpeed ax v) =
        s.setAxis ax { s.axis ax with list := { e with newSpeed := some v } :: es } := by
      change s.newSpeed ax v = _
      rw [newSpeed_eq hl, replanIfRunning_idle (Or.inl ?_)]
      rcases hs with hs | hs
      · rw [show ({ s.axis ax with list := _ } : Axis).state = _ from hs]; decide
      · rw [show ({ s.axis ax with list := _ } : Axis).state = _ from hs]; decide
    rw [hx, axis_setAxis_same]
    exact ⟨rfl, otherAxes_setAxis s ax _, rfl⟩
  · intro s ax r a e es q here sq hquiet hw ha hs hmv hu hl hst hk hsm hfd hub hphase hstop hpd hplan hq hhere hlow hhigh
      hrem hsq
    have h : s.Pulses ax a q a.pulsed :=
      ⟨hquiet, hw, ha, hmv, hu, by rw [hs]; decide, hplan, hhere ▸ hlow, hhere ▸ hhigh, rfl⟩
    obtain ⟨hc1, hc2⟩ := h.here
    rw [← hhere] at hc2
    have hdist : distanceTo a.pulsed.commanded e.target e.dir = (e.remaining here).toNat := by
      unfold distanceTo
      rw [hc2]
      rfl
    have hd : 0 < distanceTo a.pulsed.commanded e.target e.dir := by rw [hdist]; omega
    obtain ⟨c, hx⟩ := h.exec_pending (r := r) hs hl hk hfd hub hphase hpd hq hd
    have hset : a.pulsed.setup = a.setup := (pulsed_keeps a).2.2.2.2.2.1
    have hspeed : a.pulsed.prof.speedSq = sq := (pulsed_plan hplan).2.1.trans hsq.symm
    have hpend : a.pulsed.prof.pendingReplan = true := by rw [pulsed_prof.2.2.1, hpd]
    obtain ⟨hlt, heq⟩ := betweenRamps_first (q := { q with moved := q.moved + 1 }) hq
    have hother := otherAxes_setAxis s ax
      { a.pulsed.replannedThere { q with moved := q.moved + 1 } e with seen := c }
    cases hb : ({ q with moved := q.moved + 1 } : Plan).betweenRamps with
    | true =>
        have hr : a.pulsed.replannedThere { q with moved := q.moved + 1 } e = a.pulsed.planned 0 e a.pulsed.setup.floor :=
          if_pos hb
        rw [hr] at hx hother
        obtain ⟨k1, k2, k3, k4, k5⟩ := headPlan_facts a.pulsed 0 e a.pulsed.setup.floor
        refine ⟨_, a.pulsed.headPlan 0 e a.pulsed.setup.floor, hx, ?_⟩
        rw [axis_setAxis_same]
        refine ⟨h.state.trans hs, h.list.trans hl, hc2, hspeed, rfl, fun hm => ?_, fun _ => ?_, hother, rfl⟩
        · rw [hlt hm] at hb
          cases hb
        · exact ⟨rfl, k1, k2.trans hspeed, k3.trans hdist, k4.trans (targetSpeed_congr hset pulsed_prof.2.1),
            k5.trans (by rw [hset])⟩
    | false =>
        have hr : a.pulsed.replannedThere { q with moved := q.moved + 1 } e = a.pulsed := if_neg (by rw [hb]; decide)
        rw [hr] at hx hother
        refine ⟨_, { q with moved := q.moved + 1 }, hx, ?_⟩
        rw [axis_setAxis_same]
        refine ⟨h.state.trans hs, h.list.trans hl, hc2, hspeed, h.nextPlan, fun _ => ⟨hpend, rfl⟩, fun hm => ?_, hother, rfl⟩
        rw [heq hm] at hb
        cases hb

end Sys2Proof.Machine
end

section
/-!
RESUME of a move or JOG (R57, R63, R79, R80, R89): it is planned to its target or edge, with what the plan calls for at
once.
-/

open Sys2Proof Sys2Proof.Machine

namespace Sys2Proof.Machine

variable {s t x y : State} {ax : AxisIx} {a b c : Axis} {e n : Entry} {es more : List Entry} {a0 accel : Int}
  {w speedSq room : Nat} {q : Plan}

/-! ### The axis that goes on (R63, R89) -/

/-- An order on which no flying decision is taken. -/
def Entry.undecided (e : Entry) : Entry := { e with decided := false }

/-- The axis RUNNING again with its order. -/
def Axis.goingOn (a : Axis) (e : Entry) (es : List Entry) : Axis :=
  { a with list := e.undecided :: es, state := .running, stopCause := .none }

/-- An axis on which a held or holding order goes on: RUNNING, at the speed it has or with a floor step. -/
structure Axis.Resumed (a : Axis) (e : Entry) (es : List Entry) (speedSq : Nat) (c : Axis) : Prop where
  state : c.state = .running
  list : c.list = e.undecided :: es
  setup : c.setup = a.setup
  override : c.prof.override = a.prof.override
  commanded : c.commanded = a.commanded
  feedback : c.feedback = a.feedback
  speedSq : c.prof.speedSq = speedSq
  dir : a.moving = false → c.prof.dir = e.dir

theorem resume_holding (hs : (s.axis ax).state = .holding) (hl : (s.axis ax).list = e :: es) :
    s.resume ax = .done (((s.setAxis ax ((s.axis ax).goingOn e es)).replan ax (s.axis ax).prof.accel).arriveIfDue
      ax) := by
  have hu : s.updHead ax (fun e => { e with decided := false }) =
      s.setAxis ax { s.axis ax with list := e.undecided :: es } := by
    conv_lhs => rw [← setAxis_axis (x := s) (ax := ax)]
    exact updHead_setAxis _ hl
  unfold State.resume
  simp only [hs, hl, List.head?_cons, hu, setAxisState_setAxis]
  rfl

theorem resume_held (hw : s.watches = []) (hs : (s.axis ax).state = .held) (hl : (s.axis ax).list = e :: es)
    (hk : e.kind.moves = true) (hu : unboundNext es) (hr : (s.axis ax).readyActive = true)
    (hlim : (s.axis ax).limitActive e.dir = false) :
    s.resume ax = .done ((s.setAxis ax (((s.axis ax).goingOn e es).launched e.dir none (s.axis ax).setup.floor
      .accelerating)).replan ax 0) := by
  have hd : s.updHead ax (fun e => { e with decided := false }) =
      s.setAxis ax { s.axis ax with list := e.undecided :: es } := by
    conv_lhs => rw [← setAxis_axis (x := s) (ax := ax)]
    exact updHead_setAxis _ hl
  have hx : s.resume ax = .done ((s.setAxis ax { s.axis ax with list := e.undecided :: es }).resumeHeld ax e) := by
    rw [← hd]
    rcases kind_of_moves hk with h | h | h <;> simp only [State.resume, hs, hl, List.head?_cons, h]
  have hr' : ({ s.axis ax with list := e.undecided :: es } : Axis).readyActive = true := hr
  have hlim' : ({ s.axis ax with list := e.undecided :: es } : Axis).limitActive e.dir = false := by
    rw [← hlim]
    cases e.dir <;> rfl
  rw [hx]
  unfold State.resumeHeld
  dsimp only
  rw [axis_setAxis_same, hr', hlim', setAxisState_setAxis]
  simp only [Bool.not_true, Bool.false_eq_true, if_false]
  rw [beginMotion_setAxis (x := s) hw, axis_setAxis_same]
  exact congrArg Carried.done (replan_unbound
    (a := ((s.axis ax).goingOn e es).launched e.dir none (s.axis ax).setup.floor .accelerating) rfl hu).symm

theorem goingOn_resumed (a : Axis) (e : Entry) (es : List Entry) (hm : a.moving = true) :
    a.Resumed e es a.prof.speedSq (a.goingOn e es) :=
  ⟨rfl, rfl, rfl, rfl, rfl, rfl, rfl, fun h => by rw [hm] at h; cases h⟩

/-- The override of a profile that begins a motion: apart from it nothing here is looked at. -/
theorem profile_override (p : Profile) (d : Dir) (pl : Option Plan) (v : Nat) (ph : RampPhase) (ac : Int) :
    ({ p with dir := d, plan := pl, pendingReplan := false, speedSq := v, phase := ph, accel := ac } : Profile).override =
      p.override := rfl

theorem launched_override (a : Axis) (d : Dir) (p : Option Plan) (v : Nat) (ph : RampPhase) :
    (a.launched d p v ph).prof.override = a.prof.override := profile_override a.prof d p (sqOf v) ph _

theorem launched_resumed (a : Axis) (e : Entry) (es : List Entry) : a.Resumed e es (sqOf a.setup.floor)
    ((a.goingOn e es).launched e.dir none a.setup.floor .accelerating) :=
  ⟨rfl, rfl, rfl, launched_override (a.goingOn e es) e.dir none a.setup.floor .accelerating, rfl, rfl, rfl, fun _ => rfl⟩

/-- A RESUME of a move or JOG is a replan of the order, no decision taken on it (R63). -/
theorem resume_replans (hw : s.watches = []) (ha : a = s.axis ax) (hl : a.list = e :: es) (hk : e.kind.moves = true)
    (hu : unboundNext es)
    (h : (a.state = .holding ∧ a.moving = true ∧ speedSq = a.prof.speedSq ∧ accel = a.prof.accel) ∨
      (a.state = .held ∧ a.moving = false ∧ a.readyActive = true ∧ a.limitActive e.dir = false ∧
        speedSq = sqOf a.setup.floor ∧ accel = 0)) :
    ∃ c, a.Resumed e es speedSq c ∧
      (s.resume ax = .done (((s.setAxis ax c).replan ax accel).arriveIfDue ax) ∨
        s.resume ax = .done ((s.setAxis ax c).replan ax accel)) := by
  subst ha
  rcases h with ⟨hs, hm, hv, ha⟩ | ⟨hs, -, hr, hlim, hv, ha⟩
  · rw [hv, ha]
    exact ⟨_, goingOn_resumed _ e es hm, Or.inl (resume_holding hs hl)⟩
  · rw [hv, ha]
    exact ⟨_, launched_resumed _ e es, Or.inr (resume_held hw hs hl hk hu hr hlim)⟩

/-! ### The plan it makes -/

/-- The plan of an order that goes on. -/
theorem Axis.Resumed.plan (h : a.Resumed e es speedSq c) (hroom : room = (e.remaining a.commanded.toInt).toNat) (w : Nat) :
    c.headPlan accel e.undecided w =
      (orderRates a.setup e).plan speedSq accel room (a.targetSpeed e) w (e.opts.fly && e.kind.positional) := by
  have ht : c.targetSpeed e.undecided = a.targetSpeed e := targetSpeed_congr h.setup h.override
  unfold Axis.headPlan
  rw [ht, h.setup, h.speedSq, h.commanded, hroom]
  rfl

/-- A commit point is kept only of a move with FLY (R78). -/
theorem plan_commitAt {r : Rates} {u l v ev : Nat} {f : Bool} (h : (r.plan u a0 l v ev f).commitAt ≠ none) : f = true := by
  unfold Rates.plan at h
  cases f with
  | true => rfl
  | false =>
      dsimp only at h
      repeat' split at h
      all_goals exact absurd rfl h

/-- An axis whose head is planned moves. -/
theorem planned_moving : (a.planned a0 e w).moving = true := by
  have h := phaseAt_ne_standing (a.headPlan a0 e w) 0
  simp [Axis.moving, Axis.planned, h]

theorem jogged_moving (h : b.moving = true) : b.jogged.moving = true := by
  unfold Axis.jogged
  split
  · rfl
  · exact h

/-- A move goes on as a replan leaves it. -/
theorem Axis.Resumed.replans (h : a.Resumed e es speedSq c) (hk : e.kind.positional = true)
    (hd : 0 < e.remaining a.commanded.toInt)
    (hx : s.resume ax = .done (((s.setAxis ax c).replan ax accel).arriveIfDue ax) ∨
      s.resume ax = .done ((s.setAxis ax c).replan ax accel)) :
    ∃ g l w, Replans s c e.undecided es accel g l w ∧ s.resume ax = .done (({ s with gates := g } : State).setAxis ax
      (Axis.planned { c with list := l } accel e.undecided w)) := by
  have hdist : 0 < distanceTo c.commanded e.undecided.target e.undecided.dir := by
    rw [h.commanded]
    change 0 < (e.remaining a.commanded.toInt).toNat
    omega
  rcases hx with hx | hx
  · obtain ⟨g, l, w, hout, ht⟩ := arriveIfDue_replanned (s := s) (ax := ax) (a0 := accel) h.state h.list hk hdist
    exact ⟨g, l, w, hout, hx.trans (congrArg _ ht)⟩
  · obtain ⟨g, l, w, hout, ht⟩ := replan_outcome (s := s) (ax := ax) (a0 := accel) h.state h.list hk
    exact ⟨g, l, w, hout, hx.trans (congrArg _ ht)⟩

/-- A JOG goes on, and reports its edge at once where its plan does (R79). -/
theorem Axis.Resumed.jogs (h : a.Resumed e es speedSq c) (hk : e.kind = .jog) (hu : unboundNext es)
    (hd : 0 < e.remaining a.commanded.toInt)
    (hx : s.resume ax = .done (((s.setAxis ax c).replan ax accel).arriveIfDue ax) ∨
      s.resume ax = .done ((s.setAxis ax c).replan ax accel)) :
    s.resume ax = .done (s.setAxis ax (c.planned accel e.undecided c.setup.floor).jogged) := by
  have hdist : 0 < distanceTo c.commanded e.undecided.target e.undecided.dir := by
    rw [h.commanded]
    change 0 < (e.remaining a.commanded.toInt).toNat
    omega
  have hr : (s.setAxis ax c).replan ax accel =
      s.setAxis ax (c.planned accel e.undecided c.setup.floor).jogged := by
    rw [replan_unbound h.list hu, planAndDecide_jog h.list hk]
  have hdone : (c.planned accel e.undecided c.setup.floor).jogged.planDone = false := by
    rw [planDone_eq (jogged_keeps _).2.2.2.1, ← planDone_eq (a := c.planned accel e.undecided c.setup.floor) rfl]
    exact planned_not_done hdist
  rcases hx with hx | hx
  · rw [hx, hr, arriveIfDue_short hdone]
  · rw [hx, hr]

/-! ### What O27 says of a RESUME -/

/-- Where no decision and no edge report is called for, the list is that of before. -/
theorem Replans.undue {g : Vector Bool 16} {l : List Entry} (h : Replans s b e es a0 g l w) (hu : unboundNext es)
    (hc : (b.headPlan a0 e b.setup.floor).commitAt ≠ some 0) : g = s.gates ∧ l = e :: es ∧ w = b.setup.floor := by
  have hbound {p : Prop} {n : Entry} {more : List Entry} (hes : es = n :: more) (hb : n.bound = true) : p := by
    rw [hu n more hes] at hb
    cases hb
  cases h with
  | onward _ _ => exact ⟨rfl, rfl, rfl⟩
  | declined _ hd _ _ => exact absurd hd.2.2 hc
  | taken _ hd _ _ _ _ => exact absurd hd.2.2 hc
  | kept n more hes hb _ => exact hbound hes hb
  | dropped n more hes hb _ => exact hbound hes hb

/-- The flying decision that a plan calls for at once: declined, or taken (R57, R80). -/
theorem Replans.due {g : Vector Bool 16} {l : List Entry} (h : Replans s b e es a0 g l w) (hu : unboundNext es)
    (hd : b.decidesAtOnce a0 e b.setup.floor) :
    (∀ reason, s.flyFails b.setup e es.head? e.target = some reason →
      g = s.gates ∧ l = { e with fly := .declined reason, decided := true } :: es ∧ w = b.setup.floor) ∧
    (∀ n more, es = n :: more → s.flyFails b.setup e (some n) e.target = none →
      g = s.claimedGates n ∧ l = flownList e n more ∧ w = b.junctionSpeed e n (b.targetSpeed e)) := by
  have hbound {p : Prop} {n : Entry} {more : List Entry} (hes : es = n :: more) (hb : n.bound = true) : p := by
    rw [hu n more hes] at hb
    cases hb
  cases h with
  | onward _ hn => exact absurd hd hn
  | declined _ _ reason hf =>
      refine ⟨fun reason' hf' => ⟨rfl, by rw [Option.some.inj (hf.symm.trans hf')], rfl⟩, fun n more hes hf' => ?_⟩
      rw [hes, List.head?_cons, hf'] at hf
      cases hf
  | taken _ _ n more hes hf =>
      refine ⟨fun reason hf' => ?_, fun n' more' hes' _ => ?_⟩
      · rw [hes, List.head?_cons, hf] at hf'
        cases hf'
      · obtain ⟨rfl, rfl⟩ := List.cons.inj (hes.symm.trans hes')
        exact ⟨rfl, rfl, rfl⟩
  | kept n more hes hb _ => exact hbound hes hb
  | dropped n more hes hb _ => exact hbound hes hb

end Sys2Proof.Machine
end

section
/-!
ADVANCE of a move with FLY (R64, R65, R81): its successor starts at the speed of that moment or from standstill, or the
move ramps down.
-/

open Sys2Proof Sys2Proof.Machine

namespace Sys2Proof.Machine

variable {s t x y : State} {ax : AxisIx} {a b c : Axis} {e n : Entry} {es more : List Entry} {code : EndCode}
  {target : Int} {w : Dir}

/-! ### A successor that starts, from standstill or not (R59, R65, R81) -/

/-- The end of a move leaves the axis as it is, but for its list. -/
theorem headEnded_positional (hk : e.kind.positional = true) : a.headEnded e es code = { a with list := es } := by
  obtain ⟨h1, h2⟩ := headEnded_ref (a := a) (es := es) (code := code) hk
  have h : a.headEnded e es code =
      { a with list := es, ref := (a.headEnded e es code).ref, referenced := (a.headEnded e es code).referenced } := rfl
  rw [h, h1, h2]

/-- An axis on which a successor has begun, before its start checks. -/
def Axis.succeeded (a : Axis) (n : Entry) (more : List Entry) : Axis :=
  { a with list := n.started :: more, state := .running, stopCause := .none }

/-- An order with its target and direction. -/
def Entry.aimed (n : Entry) (target : Int) (w : Dir) : Entry := { n with target := target, dir := w }

/-- An axis about to travel to the target of its head: with a floor step where it stands (R76, R81). -/
def Axis.setOff (a : Axis) (n : Entry) (more : List Entry) (w : Dir) : Axis :=
  if a.moving then { a with list := n :: more }
  else Axis.launched { a with list := n :: more } w none a.setup.floor .accelerating

/-- An axis on which the head has departed toward its target. -/
def Axis.departs (a : Axis) (n : Entry) (more : List Entry) (target : Int) (w : Dir) : Axis :=
  (a.setOff (n.aimed target w) more w).planned (a.setOff (n.aimed target w) more w).prof.accel (n.aimed target w)
    a.setup.floor

theorem launched_speedSq (a : Axis) (d : Dir) (p : Option Plan) (v : Nat) (ph : RampPhase) :
    (a.launched d p v ph).prof.speedSq = sqOf v := rfl

theorem setOff_facts (a : Axis) (n : Entry) (more : List Entry) (w : Dir) :
    (a.setOff n more w).list = n :: more ∧ (a.setOff n more w).state = a.state ∧ (a.setOff n more w).setup = a.setup ∧
      (a.setOff n more w).prof.speedSq = if a.moving = true then a.prof.speedSq else sqOf a.setup.floor := by
  unfold Axis.setOff
  split
  · exact ⟨rfl, rfl, rfl, rfl⟩
  · exact ⟨rfl, rfl, rfl, launched_speedSq _ _ _ _ _⟩

/-- What a departure leaves: the order with its target at the head, a speed, and a plan from it. -/
theorem departs_facts (a : Axis) (n : Entry) (more : List Entry) (target : Int) (w : Dir) :
    (a.departs n more target w).list = n.aimed target w :: more ∧ (a.departs n more target w).state = a.state ∧
      (a.departs n more target w).prof.speedSq = (if a.moving = true then a.prof.speedSq else sqOf a.setup.floor) ∧
      ∃ q, (a.departs n more target w).prof.plan = some q ∧ q.moved = 0 ∧
        q.startSq = (a.departs n more target w).prof.speedSq := by
  obtain ⟨h1, h2, -, h4⟩ := setOff_facts a (n.aimed target w) more w
  obtain ⟨k1, k2, -⟩ := headPlan_facts (a.setOff (n.aimed target w) more w)
    (a.setOff (n.aimed target w) more w).prof.accel (n.aimed target w) a.setup.floor
  exact ⟨h1, h2, h4, _, rfl, k1, k2⟩

/-- A move without FLY departs (R50, R81). -/
theorem startMoving_departs (hw : x.watches = []) (hl : a.list = n :: more) (hk : n.kind.positional = true)
    (hf : n.opts.fly = false) : (x.setAxis ax a).startMoving ax target w = x.setAxis ax (a.departs n more target w) := by
  obtain ⟨h1, -⟩ := setOff_facts a (n.aimed target w) more w
  have hundue : ¬ (a.setOff (n.aimed target w) more w).decidesAtOnce (a.setOff (n.aimed target w) more w).prof.accel
      (n.aimed target w) a.setup.floor := by
    rintro ⟨h, -, -⟩
    rw [show (n.aimed target w).opts.fly = false from hf] at h
    cases h
  have hplan : (x.setAxis ax (a.setOff (n.aimed target w) more w)).planAndDecide ax
      (a.setOff (n.aimed target w) more w).prof.accel (n.aimed target w) a.setup.floor = _ :=
    planAndDecide_undue h1 hk hundue
  change _ = x.setAxis ax (Axis.planned _ _ _ _)
  rw [← hplan]
  have hmv : ({ a with list := { n with target := target, dir := w } :: more } : Axis).moving = a.moving := rfl
  unfold State.startMoving
  rw [updHead_setAxis _ hl]
  dsimp only
  rw [axis_setAxis_same]
  by_cases hm : a.moving = true
  · have hset : a.setOff (n.aimed target w) more w = { a with list := n.aimed target w :: more } := if_pos hm
    rw [if_pos (hmv.trans hm), head?_setAxis, axis_setAxis_same, hset]
    rfl
  · have hset : a.setOff (n.aimed target w) more w =
        Axis.launched { a with list := n.aimed target w :: more } w none a.setup.floor .accelerating := if_neg hm
    rw [if_neg (fun h => hm (hmv.symm.trans h)), beginMotion_setAxis hw, head?_setAxis, axis_setAxis_same, hset]
    rfl

/-- The successor of a move starts: its cell ACTIVE, its target and direction set, its plan made (R59, R65). -/
theorem startSuccessor_departs (hw : x.watches = []) (hl : b.list = e :: n :: more) (hs : e.status = .active)
    (hk : e.kind.positional = true) (hf : n.opts.fly = false)
    (hn : (n.kind = .moveAbs ∧ target = n.params.p1.toInt) ∨
      (n.kind = .moveRel ∧ target = b.commanded.toInt + n.params.p1.toInt))
    (hd : w = dirTo b.commanded.toInt target) (hne : target ≠ b.commanded.toInt) (hrd : b.readyActive = true)
    (hlim : b.limitActive w = false) (ha : b.allowsTarget n.kind target) :
    (x.setAxis ax b).startSuccessor ax code = ((x.headEnded b e code 0).writeCellState n.cell activeByte).setAxis ax
      ((b.succeeded n more).departs n.started more target w) := by
  have hhead : ((x.headEnded b e code 0).setAxis ax { b with list := n :: more }).head? ax = some n := by
    rw [head?_setAxis]
    rfl
  have hnk : n.kind.positional = true ∧ n.started.targetFrom (b.succeeded n more).setup b.commanded.toInt = target ∧
      n.started.dirFrom b.commanded.toInt target = w ∧ ∀ y : State, y.startKind ax n = y.startMove ax n.started := by
    rcases hn with ⟨h, ht⟩ | ⟨h, ht⟩
    · have h' : n.started.kind = .moveAbs := h
      refine ⟨by rw [h]; rfl, ?_, ?_, fun y => ?_⟩
      · simp only [Entry.targetFrom, h', ht]; rfl
      · simp only [Entry.dirFrom, h', hd]; rfl
      · simp only [State.startKind, h]
    · have h' : n.started.kind = .moveRel := h
      refine ⟨by rw [h]; rfl, ?_, ?_, fun y => ?_⟩
      · simp only [Entry.targetFrom, h', ht]; rfl
      · simp only [Entry.dirFrom, h', hd]; rfl
      · simp only [State.startKind, h]
  obtain ⟨hpos, htarget, hdir, hkind⟩ := hnk
  unfold State.startSuccessor
  rw [endHead_setAxis hl hs, headEnded_positional hk, startOrder_eq hhead, begun_setAxis rfl, hkind]
  exact (startMove_goes (a := b.succeeded n more) htarget.symm hdir.symm hne hrd hlim ha).trans
    (startMoving_departs (a := b.succeeded n more) hw rfl hpos hf)

/-! ### ADVANCE of a move with FLY (R65) -/

theorem advanceFly_bound (hb : n.bound = true) :
    s.advanceFly ax e (n :: more) = (s.startSuccessor ax .advanced).settle ax := by
  simp [State.advanceFly, hb]

theorem advanceFly_takes (hb : n.bound = false) (hd : e.decided = false) (hk : e.kind.positional = true)
    (hf : s.flyFails (s.axis ax).setup e (some n) e.target = none) :
    s.advanceFly ax e (n :: more) = (((s.claimSecond n).updHead ax
      (fun e => { e with fly := .taken, decided := true })).startSuccessor ax .advanced).settle ax := by
  simp only [State.advanceFly, List.head?_cons, Option.map_some, Option.getD_some, hb, hd, Bool.false_eq_true, if_false,
    if_neg (not_jog_of_positional hk), hf]

theorem advanceFly_declines {reason : Nat} (hb : n.bound = false) (hd : e.decided = false)
    (hk : e.kind.positional = true) (hf : s.flyFails (s.axis ax).setup e (some n) e.target = some reason) :
    s.advanceFly ax e (n :: more) =
      (s.updHead ax (fun e => { e with fly := .declined reason, decided := true })).advanceRamp ax e := by
  simp only [State.advanceFly, List.head?_cons, Option.map_some, Option.getD_some, hb, hd, Bool.false_eq_true, if_false,
    if_neg (not_jog_of_positional hk), hf]

/-- The head of an ADVANCE that starts its successor, with the fly outcome that it ends with. -/
def Entry.flown (e : Entry) (n : Entry) : Entry :=
  if n.bound then e else { e with fly := .taken, decided := true }

/-- The gates that an ADVANCE leaves: a pair bound before has had its claim granted (R58, R128). -/
def State.advancedGates (s : State) (n : Entry) : Vector Bool 16 := if n.bound then s.gates else s.claimedGates n

/-- An ADVANCE that starts its successor does so from the head with its fly outcome. -/
theorem advanceFly_starts (hl : (s.axis ax).list = e :: n :: more) (hk : e.kind.positional = true)
    (h : n.bound = true ∨ (n.bound = false ∧ e.decided = false ∧
      s.flyFails (s.axis ax).setup e (some n) e.target = none)) :
    s.advanceFly ax e (n :: more) = ((({ s with gates := s.advancedGates n } : State).setAxis ax
      { s.axis ax with list := e.flown n :: n :: more }).startSuccessor ax .advanced).settle ax := by
  rcases h with hb | ⟨hb, hd, hf⟩
  · have h1 : ({ s with gates := s.advancedGates n } : State).setAxis ax
        { s.axis ax with list := e.flown n :: n :: more } = s := by
      unfold State.advancedGates Entry.flown
      rw [if_pos hb, if_pos hb, ← hl]
      exact setAxis_axis
    rw [h1, advanceFly_bound hb]
  · have h1 : (s.claimSecond n).updHead ax (fun e => { e with fly := .taken, decided := true }) =
        ({ s with gates := s.advancedGates n } : State).setAxis ax
          { s.axis ax with list := e.flown n :: n :: more } := by
      unfold State.advancedGates Entry.flown
      rw [if_neg (by rw [hb]; decide), if_neg (by rw [hb]; decide), claimSecond_eq]
      conv_lhs => rw [← setAxis_axis (x := { s with gates := s.claimedGates n }) (ax := ax)]
      exact updHead_setAxis _ hl
    rw [← h1, advanceFly_takes hb hd hk hf]

/-- An ADVANCE of a move whose fly conditions fail ramps it down (R64, R65). -/
theorem advanceFly_ramps {reason : Nat} (hl : (s.axis ax).list = e :: n :: more) (hk : e.kind.positional = true)
    (hb : n.bound = false) (hd : e.decided = false)
    (hf : s.flyFails (s.axis ax).setup e (some n) e.target = some reason) (hs : (s.axis ax).state ≠ .held)
    (h : (s.axis ax).Slows (orderRates (s.axis ax).setup e)) (hr : 0 < (s.axis ax).stopBound (e.stopRoom (s.axis ax))) :
    s.advanceFly ax e (n :: more) = s.setAxis ax ((({ s.axis ax with
      list := { e with fly := .declined reason, decided := true } :: n :: more } : Axis).ending .request .advanced).stopBegun
        (orderRates (s.axis ax).setup e) (e.stopRoom (s.axis ax))) := by
  have h1 : s.updHead ax (fun e => { e with fly := .declined reason, decided := true }) = s.setAxis ax
      { s.axis ax with list := { e with fly := .declined reason, decided := true } :: n :: more } := by
    conv_lhs => rw [← setAxis_axis (x := s) (ax := ax)]
    exact updHead_setAxis _ hl
  have h' : ({ s.axis ax with list := { e with fly := .declined reason, decided := true } :: n :: more } : Axis).Slows
      (orderRates (s.axis ax).setup e) := ⟨h.form, h.floor, h.fast, h.dec⟩
  rw [advanceFly_declines hb hd hk hf, h1]
  unfold State.advanceRamp
  dsimp only
  rw [axis_setAxis_same, if_neg hs]
  exact (congrArg (State.settle · ax) (h'.rampToEnd hr)).trans (settle_setAxis_busy AxisState.noConfusion)

/-! ### An order that an ADVANCE or a request ends at once (R61, R64) -/

theorem endAtOnce_alone (hl : (s.axis ax).list = [e]) (hs : e.status = .active)
    (hm : s.watches = [] ∨ (s.axis ax).moving = false) :
    s.endAtOnce ax code false =
      (s.headEnded (s.axis ax) e code 0).setAxis ax ((s.axis ax).endedWith e code) := by
  have h := finishHead_setAxis (x := s) (ax := ax) (code := code) hm hl hs
  rw [setAxis_axis] at h
  unfold State.endAtOnce
  dsimp only
  rw [h, if_neg Bool.false_ne_true]
  exact settle_eq_self (.inr (by rw [axis_setAxis_same]; rfl))

end Sys2Proof.Machine
end

section
/-!
Requests carried out (O27): SET_POSITION, OVERRIDE without a move, DWELLs held and resumed, RESUME and ADVANCE.
-/

open Sys2Proof Sys2Proof.Machine

namespace Sys2Proof.Machine

variable {s t x y : State} {ax : AxisIx} {a b c : Axis} {e n : Entry} {es more : List Entry} {code : EndCode}
  {target : Int} {p : Params} {accel : Int} {room speedSq : Nat} {q : Plan} {fly : FlyOutcome}

/-! ### SET_POSITION (R107) -/

theorem setPosition_done (h : (s.axis ax).state = .idle ∨ (s.axis ax).state = .faulted) (cmd fb : Word) :
    s.setPosition ax cmd fb = .done ((s.assignPositions ax cmd fb false).addJobs [.check ax .follow]) := by
  rcases h with h | h <;> simp only [State.setPosition, h]

/-- What an assignment of positions changes: the axis, and the truth of the watches on its positions (R107, R118). -/
theorem assigned_facts (s : State) (ax : AxisIx) (cmd fb : Word) (ref : Bool)
    (ht : t = (s.assignPositions ax cmd fb ref).addJobs [.check ax .follow]) :
    t.axis ax = { s.axis ax with
        commanded := cmd, feedback := fb, referenced := ref, followErr := followErrorOf (s.axis ax).setup cmd fb } ∧
      (∀ j, j ≠ ax → t.axis j = s.axis j) ∧ t.mem = s.mem ∧ t.chain = s.chain ∧
      t.watches = s.watches.map fun v => { v with truth := if v.quantity.assignedOn ax then t.watchHolds v else v.truth } := by
  subst ht
  refine ⟨axis_setAxis_same _ _ _, fun j hj => axis_setAxis_other _ _ hj, rfl, rfl, List.map_congr_left fun v _ => ?_⟩
  by_cases h : v.quantity.assignedOn ax = true
  · rw [if_pos h, if_pos h]
    rfl
  · rw [if_neg h, if_neg h]

/-! ### A DWELL held and resumed (R62, R63) -/

theorem hold_dwell (hl : (s.axis ax).list = e :: es) (hk : e.kind = .dwell) (hs : (s.axis ax).state = .running) :
    s.hold ax = .done (s.setAxis ax { s.axis ax with state := .held, stopCause := .none }) := by
  have h : s.hold ax = .done (s.setAxisState ax .held .none) := by
    simp only [State.hold, hs, hl, List.head?_cons, hk]
  exact h

theorem resume_dwell (hl : (s.axis ax).list = e :: es) (hk : e.kind = .dwell) (hs : (s.axis ax).state = .held) :
    s.resume ax = .done (s.setAxis ax { s.axis ax with state := .running, stopCause := .none }) := by
  have h : s.resume ax = .done (s.setAxisState ax .running .none) := by
    simp only [State.resume, hs, hl, List.head?_cons, hk]
  exact h

/-! ### RESUME of a move or JOG (R63) -/

/-- What a RESUME leaves of the axis, whatever its plan calls for at once. -/
theorem resumed_common (h : a.Resumed e es speedSq c) {g : Vector Bool 16} {d : Axis}
    (hd : d.moving = true ∧ d.prof.speedSq = c.prof.speedSq ∧ d.prof.dir = c.prof.dir ∧ d.commanded = c.commanded ∧
      d.feedback = c.feedback) (ht : t = ({ s with gates := g } : State).setAxis ax d) :
    t.axis ax = d ∧ (t.axis ax).moving = true ∧ (t.axis ax).prof.speedSq = speedSq ∧
      (a.moving = false → (t.axis ax).prof.dir = e.dir) ∧ (t.axis ax).commanded = a.commanded ∧
      (t.axis ax).feedback = a.feedback ∧ s.otherAxes t ax ∧ t = { s with gates := t.gates, axes := t.axes } ∧
      t.gates = g := by
  obtain ⟨h1, h2, h3, h4, h5⟩ := hd
  have hax : t.axis ax = d := by rw [ht, axis_setAxis_same]
  refine ⟨hax, by rw [hax]; exact h1, by rw [hax, h2, h.speedSq], fun hm => by rw [hax, h3, h.dir hm],
    by rw [hax, h4, h.commanded], by rw [hax, h5, h.feedback], fun j hj => ?_, by rw [ht]; rfl, by rw [ht]; rfl⟩
  rw [ht]
  exact axis_setAxis_other _ _ hj

/-- The statement on a RESUME, where the axis and the plan that go on are known. -/
theorem resume_spec (hw : s.watches = []) (ha : a = s.axis ax) (hl : a.list = e :: es) (hk : e.kind.moves = true)
    (hu : unboundNext es) (hpos : 0 < e.remaining a.commanded.toInt)
    (h : (a.state = .holding ∧ a.moving = true ∧ speedSq = a.prof.speedSq ∧ accel = a.prof.accel) ∨
      (a.state = .held ∧ a.moving = false ∧ a.readyActive = true ∧ a.limitActive e.dir = false ∧
        speedSq = sqOf a.setup.floor ∧ accel = 0))
    (hroom : room = (e.remaining a.commanded.toInt).toNat)
    (hq : q = (orderRates a.setup e).plan speedSq accel room (a.targetSpeed e) a.setup.floor
      (e.opts.fly && e.kind.positional)) :
    ∃ t, s.resume ax = .done t ∧ (t.axis ax).moving = true ∧
      (t.axis ax).prof.speedSq = speedSq ∧ (a.moving = false → (t.axis ax).prof.dir = e.dir) ∧
      (t.axis ax).commanded = a.commanded ∧ (t.axis ax).feedback = a.feedback ∧
      q.moved = 0 ∧ q.startSq = speedSq ∧ q.length = room ∧ q.targetSpeed = a.targetSpeed e ∧
      q.endSpeed = a.setup.floor ∧ s.otherAxes t ax ∧ t = { s with gates := t.gates, axes := t.axes } ∧
      ((e.kind = .jog → q.reportAt ≠ 0) → (e.kind ≠ .jog → q.commitAt ≠ some 0) →
        (t.axis ax).state = .running ∧ (t.axis ax).list = { e with decided := false } :: es ∧
        (t.axis ax).prof.plan = some q ∧ t.gates = s.gates) ∧
      (e.kind = .jog → q.reportAt = 0 →
        (t.axis ax).state = .stopping ∧ (t.axis ax).stopCause = .limitEdge ∧ (t.axis ax).rampEnd = .limited ∧
        (t.axis ax).list = { e with decided := false } :: es ∧ (t.axis ax).prof.plan = some q ∧
        t.gates = s.gates) ∧
      (e.kind ≠ .jog → q.commitAt = some 0 → (t.axis ax).state = .running ∧
        (∀ reason, s.flyFails a.setup e es.head? e.target = some reason →
          (t.axis ax).list = { e with fly := .declined reason, decided := true } :: es ∧
          (t.axis ax).prof.plan = some q ∧ t.gates = s.gates) ∧
        (∀ n more, es = n :: more → s.flyFails a.setup e (some n) e.target = none →
          (t.axis ax).list = { e with fly := .taken, decided := true } :: { n with bound := true } :: more ∧
          (t.axis ax).prof.plan = some ((orderRates a.setup e).plan speedSq accel room (a.targetSpeed e)
            (a.junctionSpeed e n (a.targetSpeed e)) true) ∧
          t.gates = (if n.opts.gated = true ∧ n.opts.observe = false then s.gates.set n.gate false
            else s.gates))) := by
  obtain ⟨c, hc, hx⟩ := resume_replans hw ha hl hk hu h
  have hcs := hc.setup
  have hplan : c.headPlan accel e.undecided c.setup.floor = q := by rw [hc.plan hroom, hq, hcs]
  obtain ⟨k1, k2, k3, k4, -, k6⟩ := plan_start (orderRates a.setup e) speedSq accel room (a.targetSpeed e) a.setup.floor
    (e.opts.fly && e.kind.positional)
  rw [← hq] at k1 k2 k3 k4 k6
  by_cases hj : e.kind = .jog
  · have ht := hc.jogs hj hu hpos hx
    obtain ⟨m1, m2, m3, m4, -, -, -, m8⟩ := jogged_keeps (c.planned accel e.undecided c.setup.floor)
    obtain ⟨hax, r1, r2, r3, r4, r5, r6, r7, -⟩ := resumed_common (s := s) (g := s.gates) (ax := ax) hc
      ⟨jogged_moving planned_moving, m3, m8, m2, by unfold Axis.jogged; split <;> rfl⟩ rfl
    have hreach := edgeDecelReached_jog (b := c.planned accel e.undecided c.setup.floor) hc.state hc.list hj
      (q := q) (congrArg some hplan)
    rw [k2] at hreach
    refine ⟨_, ht, r1, r2, r3, r4, r5, k2, k3, k1, k6, k4, r6, r7, fun hr _ => ?_, fun _ hr => ?_,
      fun hn => absurd hj hn⟩
    · have hlist := m1.trans hc.list
      have hp := m4.trans (congrArg some hplan)
      have hs : (c.planned accel e.undecided c.setup.floor).jogged = c.planned accel e.undecided c.setup.floor := by
        unfold Axis.jogged
        rw [hreach, if_neg (by simpa using hr hj)]
      rw [axis_setAxis_same]
      exact ⟨(congrArg Axis.state hs).trans hc.state, hlist, hp, rfl⟩
    · have hlist := m1.trans hc.list
      have hp := m4.trans (congrArg some hplan)
      have hs : (c.planned accel e.undecided c.setup.floor).jogged =
          (c.planned accel e.undecided c.setup.floor).edgeReported := by
        unfold Axis.jogged
        rw [hreach, if_pos (by simpa using hr)]
      rw [axis_setAxis_same]
      exact ⟨congrArg Axis.state hs, congrArg Axis.stopCause hs, congrArg Axis.rampEnd hs, hlist, hp, rfl⟩
  · have hpk : e.kind.positional = true := by
      rcases kind_of_moves hk with h | h | h
      · rw [h]; rfl
      · rw [h]; rfl
      · exact absurd h hj
    obtain ⟨g, l, w, hout, ht⟩ := hc.replans hpk hpos hx
    obtain ⟨hax, r1, r2, r3, r4, r5, r6, r7, r8⟩ := resumed_common (s := s) (g := g) (ax := ax)
      (d := Axis.planned { c with list := l } accel e.undecided w) hc ⟨planned_moving, rfl, rfl, rfl, rfl⟩ rfl
    refine ⟨_, ht, r1, r2, r3, r4, r5, k2, k3, k1, k6, k4, r6, r7, fun _ hn => ?_, fun h => absurd h hj, fun _ hc0 => ?_⟩
    · obtain ⟨rfl, rfl, rfl⟩ := hout.undue hu (by rw [hplan]; exact hn hj)
      rw [axis_setAxis_same]
      exact ⟨hc.state, rfl, congrArg some hplan, rfl⟩
    · have hfly : (e.opts.fly && e.kind.positional) = true := plan_commitAt (by rw [← hq, hc0]; exact Option.some_ne_none 0)
      rw [Bool.and_eq_true] at hfly
      obtain ⟨hdec, htak⟩ := hout.due hu ⟨hfly.1, rfl, by rw [hplan]; exact hc0⟩
      rw [axis_setAxis_same]
      refine ⟨hc.state, fun reason hf => ?_, fun n more hes hf => ?_⟩
      · obtain ⟨rfl, rfl, rfl⟩ := hdec reason (by rw [hcs]; exact hf)
        exact ⟨rfl, congrArg some hplan, rfl⟩
      · obtain ⟨rfl, rfl, rfl⟩ := htak n more hes (by rw [hcs]; exact hf)
        refine ⟨rfl, congrArg some ?_, rfl⟩
        refine (hc.plan hroom _).trans ?_
        rw [hfly.1, hfly.2, targetSpeed_congr hcs hc.override, junctionSpeed_congr hcs hc.override]
        rfl

/-! ### ADVANCE (R64, R65) -/

/-- An ADVANCE that ends an order at once (R64). -/
theorem advance_atOnce (hl : (s.axis ax).list = [e]) (hs : e.status = .active) (hm : (s.axis ax).moving = false)
    (h : (e.kind = .dwell ∧ ((s.axis ax).state = .running ∨ (s.axis ax).state = .held)) ∨
      (e.kind.moves = true ∧ e.opts.fly = false ∧ (s.axis ax).state = .held)) :
    s.advance ax = .done ((s.headEnded (s.axis ax) e .advanced 0).setAxis ax ((s.axis ax).endedWith e .advanced)) := by
  have hend := endAtOnce_alone (code := .advanced) hl hs (Or.inr hm)
  rw [← hend]
  rcases h with ⟨hk, hst | hst⟩ | ⟨hk, hf, hst⟩
  · simp only [State.advance, hst, hl, hk]
  · simp only [State.advance, hst, hl, hk]
  · rw [advance_moves (Or.inr (Or.inr hst)) hl hk, hf]
    simp only [State.advanceRamp, hst, Bool.false_eq_true, if_false, if_true]

/-- The statement on an ADVANCE that starts the successor (R65, R81). -/
theorem advance_starts_spec (hl : (s.axis ax).list = e :: n :: more) (hk : e.kind.positional = true)
    (hf : e.opts.fly = true) (hs : e.status = .active)
    (hst : (s.axis ax).state = .running ∨ (s.axis ax).state = .holding ∨ (s.axis ax).state = .held)
    (hm : s.memoryWf = true) (hone : s.onePlace) (he : e.cell < 480) (hn : n.cell < 480) (hw : s.watches = [])
    (hfly : (n.bound = true ∧ fly = e.fly) ∨ (n.bound = false ∧ e.decided = false ∧ fly = .taken ∧
      s.flyFails (s.axis ax).setup e (some n) e.target = none))
    (htgt : (n.kind = .moveAbs ∧ target = n.params.p1.toInt) ∨
      (n.kind = .moveRel ∧ target = (s.axis ax).commanded.toInt + n.params.p1.toInt))
    (hnf : n.opts.fly = false) (hne : target ≠ (s.axis ax).commanded.toInt)
    (hall : (s.axis ax).allowsTarget n.kind target) (hr : (s.axis ax).readyActive = true)
    (hlim : (s.axis ax).limitActive (dirTo (s.axis ax).commanded.toInt target) = false) :
    ∃ t, s.advance ax = .done t ∧ (t.axis ax).state = .running ∧
      t.endReads e.cell (bytes4 2 0 fly.bits 0) 0 (s.axis ax).commanded (s.axis ax).feedback
        (BitVec.ofNat 32 e.elapsed) ∧
      t.readByte (0x800 + 64 * n.cell) = 3 ∧
      (∃ n', (t.axis ax).list = n' :: more ∧ n'.cell = n.cell ∧ n'.status = .active ∧ n'.bound = false ∧
        n'.fly = .none ∧ n'.target = target) ∧
      (t.axis ax).prof.speedSq =
        (if (s.axis ax).moving = true then (s.axis ax).prof.speedSq else sqOf (s.axis ax).setup.floor) ∧
      (∃ q, (t.axis ax).prof.plan = some q ∧ q.moved = 0 ∧ q.startSq = (t.axis ax).prof.speedSq) ∧
      t.chain = s.chain ++ [e.cell] ∧ t.causes = { s.causes with ret := s.causes.ret || e.opts.notify } ∧
      (∀ j, j ≠ ax → t.axis j = s.axis j) ∧
      t.gates = (if n.bound = false ∧ n.opts.gated = true ∧ n.opts.observe = false
        then s.gates.set n.gate false else s.gates) ∧
      t = { s with
            mem := t.mem, chain := t.chain, causes := t.causes, axes := t.axes, gates := t.gates } := by
  have hcases : n.bound = true ∨ (n.bound = false ∧ e.decided = false ∧
      s.flyFails (s.axis ax).setup e (some n) e.target = none) :=
    hfly.imp (fun h => h.1) fun h => ⟨h.1, h.2.1, h.2.2.2⟩
  have hout : (e.flown n).fly = fly ∧ s.advancedGates n = (if n.bound = false ∧ n.opts.gated = true ∧
      n.opts.observe = false then s.gates.set n.gate false else s.gates) := by
    unfold Entry.flown State.advancedGates State.claimedGates
    rcases hfly with ⟨hb, h⟩ | ⟨hb, -, h, -⟩ <;> simp [hb, h]
  have hfields : (e.flown n).cell = e.cell ∧ (e.flown n).status = .active ∧ (e.flown n).kind = e.kind ∧
      (e.flown n).elapsed = e.elapsed ∧ (e.flown n).opts = e.opts := by
    unfold Entry.flown
    split <;> exact ⟨rfl, hs, rfl, rfl, rfl⟩
  obtain ⟨hcell, hstat, hkind, helapsed, hopts⟩ := hfields
  have hdep := startSuccessor_departs (x := { s with gates := s.advancedGates n }) (ax := ax) (code := .advanced)
    (b := { s.axis ax with list := e.flown n :: n :: more }) hw rfl hstat (by rw [hkind]; exact hk) hnf htgt rfl hne hr
    (by rw [← hlim]; cases dirTo (s.axis ax).commanded.toInt target <;> rfl) hall
  obtain ⟨d1, d2, d3, d4⟩ := departs_facts
    (Axis.succeeded { s.axis ax with list := e.flown n :: n :: more } n more) n.started more target
    (dirTo (s.axis ax).commanded.toInt target)
  have hx := (advance_moves hst hl (positional_moves hk)).trans (congrArg Carried.done ((if_pos hf).trans
    ((advanceFly_starts hl hk hcases).trans ((congrArg (State.settle · ax) hdep).trans
      (settle_setAxis_busy fun h => AxisState.noConfusion (d2.symm.trans h))))))
  have hne' : e.cell ≠ n.cell := by
    have := head_not_behind hone hl
    rw [cellsOf, List.map_cons, List.mem_cons, not_or] at this
    exact this.1
  have hmem := memoryWf_headEnded (s := { s with gates := s.advancedGates n })
    (a := { s.axis ax with list := e.flown n :: n :: more }) (e := e.flown n) (code := .advanced) hm
  have hreads := headEnded_readsEnd (s := { s with gates := s.advancedGates n }) (code := .advanced)
    (b := { s.axis ax with list := e.flown n :: n :: more }) (e := e.flown n) hm (by rw [hcell]; exact he) hstat
    (fun h => by rw [hkind, positional_moves hk] at h; cases h) 0
  rw [hcell, hout.1, helapsed] at hreads
  refine ⟨_, hx, ?_, endReads_writeCellState hne' hreads, writeCellState_reads hmem hn, ?_, ?_, ?_, ?_, ?_,
    fun j hj => axis_setAxis_other _ _ hj, hout.2, rfl⟩
  · rw [axis_setAxis_same]
    exact d2
  · rw [axis_setAxis_same]
    exact ⟨_, d1, rfl, rfl, rfl, rfl, rfl⟩
  · rw [axis_setAxis_same]
    exact d3
  · rw [axis_setAxis_same]
    exact d4
  · exact congrArg (fun k => s.chain ++ [k]) hcell
  · exact congrArg (fun o : Options => { s.causes with ret := s.causes.ret || o.notify }) hopts

/-- Settles O27, request by request. -/
theorem requestsCarriedOut : Obligations.RequestsCarriedOut := by
  unfold Obligations.RequestsCarriedOut
  refine fun s ax p => ⟨fun h => ?_, fun h => ?_, fun e es hl hk => ⟨fun hs => ?_, fun hs => ?_⟩, ?_, ?_, ?_⟩
  · obtain ⟨h1, h2, h3, h4, h5⟩ := assigned_facts s ax p.p1 p.p2 false rfl
    refine ⟨_, setPosition_done h p.p1 p.p2, h1, h2, h3, h4, by rw [h5, List.length_map], fun i v v' hv hv' => ?_⟩
    rw [h5, List.getElem?_map, hv] at hv'
    exact (Option.some.inj hv').symm
  · have hx : s.setOverride ax p.p1.toNat = s.setAxis ax
        { s.axis ax with prof := { (s.axis ax).prof with override := p.p1.toNat } } := by
      rw [setOverride_eq]
      exact replanIfRunning_idle (a := { s.axis ax with prof := { (s.axis ax).prof with override := p.p1.toNat } }) h
    refine ⟨_, congrArg Carried.done hx, ?_⟩
    rw [axis_setAxis_same]
    exact ⟨rfl, fun j hj => axis_setAxis_other _ _ hj, rfl⟩
  · refine ⟨_, hold_dwell hl hk hs, ?_⟩
    rw [axis_setAxis_same]
    exact ⟨rfl, fun j hj => axis_setAxis_other _ _ hj, rfl⟩
  · refine ⟨_, resume_dwell hl hk hs, ?_⟩
    rw [axis_setAxis_same]
    exact ⟨rfl, fun j hj => axis_setAxis_other _ _ hj, rfl⟩
  · intro a e es speedSq room accel q hw ha hl hk hu hpos h hroom hq
    exact resume_spec hw ha hl hk hu hpos h hroom hq
  · intro e hm hone hc hl hs hf hmv h
    obtain ⟨h1, -, h2, -, h3, h4, h5, h6, h7, h8⟩ := endsAlone_endedWith (code := .advanced) hm hc hs (fun _ => hf)
      (rfl : (s.axis ax).feedback = _) rfl rfl ((s.axis ax).endedWith e .advanced).seen
    rw [hf] at h3
    exact ⟨_, advance_atOnce hl hs hmv h, h1, h2, h3, h4, h5, h6, h7, h8⟩
  · intro e n more hl hk hf hs hst
    refine ⟨fun target fly hm hone he hn hw hfly htgt hnf hne hall hr hlim =>
      advance_starts_spec hl hk hf hs hst hm hone he hn hw hfly htgt hnf hne hall hr hlim, ?_⟩
    intro reason hd hb hheld hsm hu h0 hdir h1 h2 hrem hfail
    have hsl := slows_order (a := s.axis ax) (positional_moves hk) hsm hu rfl h0
    have hroom : 0 < (s.axis ax).stopBound (e.stopRoom (s.axis ax)) := by
      rw [stopBound_target hdir h1 h2]
      omega
    have hx := (advance_moves hst hl (positional_moves hk)).trans (congrArg Carried.done ((if_pos hf).trans
      (advanceFly_ramps hl hk hb hd hfail hheld hsl hroom)))
    refine ⟨_, hx, ?_⟩
    rw [axis_setAxis_same]
    exact ⟨rfl, rfl, rfl, rfl, fun j hj => axis_setAxis_other _ _ hj, rfl⟩

end Sys2Proof.Machine
end

section
/-!
Module STOP (O14; R184, R185): the blocks that it reaches, in any order; on a standing module, and where one axis has
a ramp to make.
-/

open Sys2Proof Sys2Proof.Machine

namespace Sys2Proof.Machine

variable {s t x y : State} {ax : AxisIx} {a : Axis} {e n : Entry} {es : List Entry} {r : Race} {arg : Byte}
  {c : StopCause} {m : Nat}

/-! ### Folds most of whose steps change nothing -/

/-- A condition that holds of a state, and still after each of some steps. -/
def HoldsAlong {α β : Type} (f : β → α → β) (E : β → Prop) : List α → β → Prop
  | [], x => E x
  | u :: us, x => E x ∧ HoldsAlong f E us (f x u)

/-- Of the steps of a fold only those count that act. -/
theorem foldl_acting {α β : Type} {f : β → α → β} {E : β → Prop} {p : α → Bool}
    (hid : ∀ x b, E x → p b = false → f x b = x) :
    ∀ (l : List α) {x : β}, HoldsAlong f E (l.filter p) x → l.foldl f x = (l.filter p).foldl f x
  | [], _, _ => rfl
  | b :: l, x, h => by
      cases hb : p b with
      | true =>
          rw [List.filter_cons_of_pos hb] at h ⊢
          exact foldl_acting hid l h.2
      | false =>
          rw [List.filter_cons_of_neg (by simp [hb])] at h ⊢
          have hx : E x := by
            cases hl : l.filter p with
            | nil => rw [hl] at h; exact h
            | cons u us => rw [hl] at h; exact h.1
          rw [List.foldl_cons, hid x b hx hb]
          exact foldl_acting hid l h

/-- Two elements in any order. -/
theorem perm_pair {α : Type} {u v : α} {l : List α} (h : l.Perm [u, v]) : l = [u, v] ∨ l = [v, u] := by
  match l, h.length_eq with
  | [a, b], _ =>
    by_cases hau : a = u
    · subst hau
      exact Or.inl (by rw [(List.perm_singleton.1 ((List.perm_cons a).1 h))])
    · have ha : a = v := by
        have := h.subset (List.mem_cons_self (a := a))
        simpa [hau] using this
      subst ha
      have hb := List.perm_singleton.1 ((List.perm_cons a).1 (h.trans (List.Perm.swap a u [])))
      exact Or.inr (by rw [hb])

/-- The cells of one list differ (R4). -/
theorem list_nodup (hs : s.onePlace) (ax : AxisIx) : (cellsOf (s.axis ax).list).Nodup := by
  refine List.nodup_iff_count_le_one.2 fun k => ?_
  have h1 := List.nodup_iff_count_le_one.1 hs.1 k
  rw [count_cells] at h1
  fin_cases ax <;> dsimp <;> omega

/-! ### What STOP is at first (R174, R184) -/

/-- The module as STOP begins: read-back, STOPPING, no supervision. -/
def State.stopNoted (s : State) (arg : Byte) : State := { s with
  readback := { code := 2, arg := arg, outcome := .taken, count := s.readback.count + 1 }
  modState := .stopping
  supTimer := none }

/-- The blocks of a STOP. -/
def stopBlocks : List StopBlock := [.watchUnit, .sequencer 0, .sequencer 1, .sequencer 2, .sequencer 3]

/-- STOP taken: what its blocks make of the module, and what follows. -/
theorem exec_stop (h : s.modState = .running ∨ s.modState = .silent) (hr : r.collects = []) :
    exec (.stop arg r) s =
      .next (((pickOrder r.blocks stopBlocks).foldl State.stopBlock (s.stopNoted arg)).finish r) := by
  have hok : (s.modState == .running || s.modState == .silent) = true := by
    rcases h with h | h <;> rw [h] <;> rfl
  have hn : { (s.noteControl codeStop arg .taken).enter .stopping with supTimer := none } = s.stopNoted arg := by
    unfold State.noteControl State.activity
    split <;> rfl
  change Host.Outcome.next (s.takeStop arg r) = _
  unfold State.takeStop
  dsimp only
  rw [if_pos hok, hok, close_of_uncollected hr]
  unfold State.beginStopping
  change Host.Outcome.next (State.finish (((pickOrder r.blocks stopBlocks).foldl State.stopBlock
    { (s.noteControl codeStop arg .taken).enter .stopping with supTimer := none })) r) = _
  rw [hn]

/-! ### The blocks (R70, R125, R184) -/

/-- The watch unit ends its watches and closes the gates. -/
theorem stopBlock_watchUnit : x.stopBlock .watchUnit = { x.endings (x.watches.map cancelEnding) with
    watches := [], gates := Vector.replicate 16 false } := by
  change ({ x.cancelAll with gates := Vector.replicate 16 false } : State) = _
  rw [cancelAll_eq_endings]

/-- A stop request leaves an axis that stands with an empty list as it is. -/
theorem moduleStopAxis_standing {b : Bool} (h : (x.axis ax).standsEmpty) : x.moduleStopAxis ax c b = x := by
  have hr := h.1
  unfold State.moduleStopAxis
  dsimp only
  unfold Axis.atRest at hr
  cases hs : (x.axis ax).state <;> simp only [hs] at hr ⊢ <;> cases hr

/-- A stop request on a move or JOG with room and speed for its ramp (R70, R87). -/
theorem moduleStopAxis_ramp (hs : a.state = .running ∨ a.state = .holding) (hl : a.list = e :: es)
    (hk : e.kind.moves = true) (h : a.Slows (stopRates a.setup (some e))) (hr : 0 < a.stopBound (e.stopRoom a)) :
    (x.setAxis ax a).moduleStopAxis ax c false = (x.flushed a es).setAxis ax
      (({ a with list := [unboundHead e es] }.ending c .stopped).stopBegun (stopRates a.setup (some e))
        (e.stopRoom a)) := by
  have h' : ({ a with list := [unboundHead e es] } : Axis).Slows (stopRates a.setup (some e)) :=
    ⟨h.form, h.floor, h.fast, h.dec⟩
  have hx : (x.setAxis ax a).moduleStopAxis ax c false =
      ((x.setAxis ax a).flushTail ax).rampToEnd ax e c .stopped (stopRates a.setup (some e)) := by
    unfold State.moduleStopAxis
    simp only [axis_setAxis_same]
    rcases hs with hs | hs <;> rcases kind_of_moves hk with hk | hk | hk <;> simp [hs, hl, hk]
  rw [hx, flushTail_setAxis hl]
  exact h'.rampToEnd hr

theorem endings_gates_irrelevant (g : Vector Bool 16) : ∀ (ds : List Ending) {x : State},
    ({ x with gates := g } : State).endings ds = { x.endings ds with gates := g }
  | [], _ => rfl
  | d :: ds, x => by
      have h : ({ x with gates := g } : State).ended d.cell d.res d.notify =
          { x.ended d.cell d.res d.notify with gates := g } := by
        unfold State.ended
        rw [State.endMem, State.endMem, endCell_mem_congr (s := x) (t := { x with gates := g }) (b' := false) rfl rfl]
      change (({ x with gates := g } : State).ended d.cell d.res d.notify).endings ds = _
      rw [h]
      exact endings_gates_irrelevant g ds

/-! ### On a standing module -/

/-- The watches of a standing module end, and its gates close. -/
theorem stopBlocks_standing {picks : List Nat} (h : x.standing) :
    (pickOrder picks stopBlocks).foldl State.stopBlock x = { x.endings (x.watches.map cancelEnding) with
      watches := [], gates := Vector.replicate 16 false } := by
  have hp : ((pickOrder picks stopBlocks).filter (· == .watchUnit)) = [.watchUnit] :=
    List.perm_singleton.1 ((pickOrder_perm picks stopBlocks).filter _)
  have haxes : (x.stopBlock .watchUnit).axes = x.axes := by
    rw [stopBlock_watchUnit, endings_eq]
  rw [foldl_acting (E := fun y => y.axes = x.axes) (p := (· == .watchUnit)) (fun y b hy hb => ?_), hp]
  · exact stopBlock_watchUnit
  · rw [hp]
    exact ⟨rfl, haxes⟩
  · cases b with
    | watchUnit => cases hb
    | sequencer ax =>
        refine moduleStopAxis_standing ?_
        unfold State.axis
        rw [hy]
        exact h ax

/-- Endings leave the axes, the agenda and the module state. -/
theorem endings_fields (ds : List Ending) : (x.endings ds).axes = x.axes ∧ (x.endings ds).agenda = x.agenda ∧
    (x.endings ds).modState = x.modState ∧ (x.endings ds).watches = x.watches := by
  rw [endings_eq]
  exact ⟨rfl, rfl, rfl, rfl⟩

theorem axis_of_axes (h : y.axes = x.axes) (j : AxisIx) : y.axis j = x.axis j := congrArg (·.get j) h

/-- STOP on a standing module (R184, R185). -/
theorem exec_stop_standing (h : s.modState = .running ∨ s.modState = .silent) (hr : r.collects = [])
    (hs : s.standing) (hg : s.agenda = []) (hd : ∀ ax, (s.axis ax).ref.assignDue = false) :
    exec (.stop arg r) s = .next { (s.stopNoted arg).endings (s.watches.map cancelEnding) with
      watches := [], gates := Vector.replicate 16 false, modState := .stopped
      causes := { ((s.stopNoted arg).endings (s.watches.map cancelEnding)).causes with state := true } } := by
  obtain ⟨haxes, hagenda, hmod, -⟩ := endings_fields (x := s.stopNoted arg) (s.watches.map cancelEnding)
  have hax := axis_of_axes haxes
  refine (exec_stop h hr).trans (congrArg Host.Outcome.next ?_)
  refine (congrArg (State.finish · r) (stopBlocks_standing (x := s.stopNoted arg) hs)).trans ?_
  refine (finish_of_calm (calm_iff.2 ⟨?_, fun ax => ?_⟩)).trans ?_
  · exact hagenda.trans hg
  · exact (congrArg (·.ref.assignDue) (hax ax)).trans (hd ax)
  · unfold State.stopIfAtRest
    rw [if_pos]
    · rfl
    · rw [Bool.and_eq_true]
      exact ⟨decide_eq_true hmod, List.all_eq_true.2 fun ax _ => (congrArg Axis.atRest (hax ax)).trans (hs ax).1⟩

/-- All gates closed. -/
def State.gatesShut (x : State) : State := { x with gates := Vector.replicate 16 false }

/-! ### Where one axis has a ramp to make -/

/-- One axis ramps, the gates close. -/
theorem stopBlocks_ramp {picks : List Nat} (hw : x.watches = []) (ho : ∀ j, j ≠ ax → (x.axis j).standsEmpty)
    (hs : (x.axis ax).state = .running ∨ (x.axis ax).state = .holding) (hl : (x.axis ax).list = e :: es)
    (hk : e.kind.moves = true) (h : (x.axis ax).Slows (stopRates (x.axis ax).setup (some e)))
    (hr : 0 < (x.axis ax).stopBound (e.stopRoom (x.axis ax))) {b : Axis}
    (hb : b = ({ x.axis ax with list := [unboundHead e es] }.ending .module .stopped).stopBegun
      (stopRates (x.axis ax).setup (some e)) (e.stopRoom (x.axis ax))) :
    (pickOrder picks stopBlocks).foldl State.stopBlock x = ((x.flushed (x.axis ax) es).setAxis ax b).gatesShut := by
  have hgates {y : State} (hy : y.watches = []) : y.stopBlock .watchUnit = y.gatesShut := by
    have h : { y with watches := [], gates := Vector.replicate 16 false } = y.gatesShut := by rw [← hy]; rfl
    rw [stopBlock_watchUnit, hy]
    exact h
  have hstop {y : State} (hy : y.axes = x.axes) :
      y.stopBlock (.sequencer ax) = (y.flushed (x.axis ax) es).setAxis ax b := by
    have hya : y.setAxis ax (x.axis ax) = y := by
      have : y.axis ax = x.axis ax := by unfold State.axis; rw [hy]
      rw [← this, setAxis_axis]
    have := moduleStopAxis_ramp (x := y) (ax := ax) (c := .module) hs hl hk h hr
    rw [hya, ← hb] at this
    exact this
  have hflush (y : State) : (y.flushed (x.axis ax) es).axes = y.axes ∧
      (y.flushed (x.axis ax) es).watches = y.watches := by
    rw [flushed_eq_endings, endings_eq]
    exact ⟨rfl, rfl⟩
  have hcomm : x.gatesShut.flushed (x.axis ax) es = (x.flushed (x.axis ax) es).gatesShut := by
    rw [flushed_eq_endings, flushed_eq_endings]
    exact endings_gates_irrelevant _ _
  have hother {y : State} {b : Axis} (hy : y.axes = x.axes) (j : AxisIx) (hj : j ≠ ax) :
      ((y.setAxis ax b).axis j).standsEmpty := by
    rw [axis_setAxis_other _ _ hj]
    unfold State.axis
    rw [hy]
    exact ho j hj
  have hperm : ((pickOrder picks stopBlocks).filter fun b => b == .watchUnit || b == .sequencer ax).Perm
      [.watchUnit, .sequencer ax] := by
    refine ((pickOrder_perm picks stopBlocks).filter _).trans ?_
    fin_cases ax <;> exact List.Perm.refl _
  have hid (y : State) (b : StopBlock) (hy : ∀ j, j ≠ ax → (y.axis j).standsEmpty)
      (hb : (b == .watchUnit || b == .sequencer ax) = false) : y.stopBlock b = y := by
    cases b with
    | watchUnit => cases hb
    | sequencer j => exact moduleStopAxis_standing (hy j fun hj => by subst hj; simp at hb)
  rcases perm_pair hperm with hp | hp
  · rw [foldl_acting hid, hp]
    · simp only [List.foldl_cons, List.foldl_nil]
      rw [hgates hw, hstop (y := x.gatesShut) rfl, hcomm]
      rfl
    · rw [hp]
      refine ⟨ho, by rw [hgates hw]; exact ho, ?_⟩
      simp only [HoldsAlong]
      rw [hgates hw, hstop (y := x.gatesShut) rfl]
      exact hother (hflush _).1
  · rw [foldl_acting hid, hp]
    · simp only [List.foldl_cons, List.foldl_nil]
      rw [hstop rfl, hgates (y := State.setAxis _ _ _) ((hflush x).2.trans hw)]
    · rw [hp]
      refine ⟨ho, by rw [hstop rfl]; exact hother (hflush x).1, ?_⟩
      simp only [HoldsAlong]
      rw [hstop rfl, hgates (y := State.setAxis _ _ _) ((hflush x).2.trans hw)]
      exact hother (hflush x).1

/-- STOP where one axis has a ramp to make: the module stays in STOPPING (R184, R185). -/
theorem exec_stop_ramp (h : s.modState = .running ∨ s.modState = .silent) (hc : r.collects = []) (hw : s.watches = [])
    (hg : s.agenda = []) (hd : ∀ j, (s.axis j).ref.assignDue = false) (ho : ∀ j, j ≠ ax → (s.axis j).standsEmpty)
    (hs : (s.axis ax).state = .running ∨ (s.axis ax).state = .holding) (hl : (s.axis ax).list = e :: es)
    (hk : e.kind.moves = true) (hsl : (s.axis ax).Slows (stopRates (s.axis ax).setup (some e)))
    (hr : 0 < (s.axis ax).stopBound (e.stopRoom (s.axis ax))) {b : Axis}
    (hb : b = ({ s.axis ax with list := [unboundHead e es] }.ending .module .stopped).stopBegun
      (stopRates (s.axis ax).setup (some e)) (e.stopRoom (s.axis ax))) :
    exec (.stop arg r) s = .next (((s.stopNoted arg).flushed (s.axis ax) es).setAxis ax b).gatesShut := by
  have href : b.ref = (s.axis ax).ref := by rw [hb]; rfl
  have hstate : b.state = .stopping := by rw [hb]; rfl
  obtain ⟨haxes, hagenda, -⟩ := endings_fields (x := s.stopNoted arg) (es.map (flushEnding (s.axis ax)))
  rw [← flushed_eq_endings] at haxes hagenda
  have hdue (b : Axis) (hb : b.ref = (s.axis ax).ref) (j : AxisIx) :
      ((((s.stopNoted arg).flushed (s.axis ax) es).setAxis ax b).axis j).ref.assignDue = false := by
    by_cases hj : j = ax
    · subst hj
      rw [axis_setAxis_same, hb, hd]
    · rw [axis_setAxis_other _ _ hj, axis_of_axes haxes]
      exact hd j
  refine (exec_stop h hc).trans (congrArg Host.Outcome.next ?_)
  refine (congrArg (State.finish · r) (stopBlocks_ramp (x := s.stopNoted arg) hw ho hs hl hk hsl hr hb)).trans ?_
  refine (finish_of_calm (calm_iff.2 ⟨?_, fun j => ?_⟩)).trans ?_
  · exact hagenda.trans hg
  · exact hdue b href j
  unfold State.stopIfAtRest
  refine if_neg ?_
  rw [Bool.and_eq_true, not_and, Bool.not_eq_true]
  refine fun _ => List.all_eq_false.2 ⟨ax, mem_allAxes ax, ?_⟩
  change ¬ ((State.setAxis _ ax b).axis ax).atRest = true
  rw [axis_setAxis_same]
  unfold Axis.atRest
  rw [hstate]
  exact Bool.noConfusion

/-- Settles O14: on a standing module, where one axis ramps, and at the end of the last ramp. -/
theorem moduleStopAtRest : Obligations.ModuleStopAtRest := by
  unfold Obligations.ModuleStopAtRest
  refine ⟨fun s arg r h hr hs hg hd hone hm => ?_, fun s arg r ax e es h hc hw hg hd hone hm ho hl hadm hs hk hsm hu h0
    hdir h1 h2 hrem => ?_, fun s h hrest => ?_⟩
  · have hn : ((s.watches.map cancelEnding).map (·.cell)).Nodup := by
      rw [cancelEnding_cells]
      exact watches_nodup hone
    have hreads := endings_reads (x := s.stopNoted arg) (s.watches.map cancelEnding) hm hn
    have hbytes (k : Nat) := endings_other (k := k) (s.watches.map cancelEnding) (x := s.stopNoted arg)
    obtain ⟨y, hy⟩ : ∃ y, y = (s.stopNoted arg).endings (s.watches.map cancelEnding) := ⟨_, rfl⟩
    have heq := endings_eq (s.watches.map cancelEnding) (x := s.stopNoted arg)
    refine ⟨_, exec_stop_standing h hr hs hg hd, rfl, rfl, ?_⟩
    rw [← hy] at hreads hbytes heq ⊢
    rw [cancelEnding_cells, cancelEnding_notify] at heq
    refine ⟨by rw [heq]; rfl, rfl, fun g => by simp [State.gateOpen], fun v hv hv4 => ?_, by rw [heq]; rfl,
      fun k hk => ?_, by rw [heq]; rfl, by rw [heq]; rfl, by rw [heq]; rfl, by rw [heq]; rfl, by rw [heq]; rfl⟩
    · have := hreads _ (List.mem_map_of_mem hv) hv4
      unfold State.readsEnding at this
      change y.endReads v.cell (v.result EndCode.cancelled.code).codeWord _ _ _ _ at this
      rw [watchResult_codeWord] at this
      exact this
    · have := hbytes k hk
      rw [cancelEnding_cells] at this
      exact this
  · have hsl := slows_stop (a := s.axis ax) hk hsm hu rfl h0
    have hb := stopBound_target (s := s) (ax := ax) hdir h1 h2
    have hr : 0 < (s.axis ax).stopBound (e.stopRoom (s.axis ax)) := by rw [hb]; omega
    have hn : ((es.map (flushEnding (s.axis ax))).map (·.cell)).Nodup := by
      rw [flushEnding_cells]
      have := list_nodup hone ax
      rw [hl] at this
      exact (List.nodup_cons.1 this).2
    have hreads {n : Entry} (hmem : n ∈ es) (h4 : n.cell < 480) := endings_flushed (x := s.stopNoted arg) hm hn
      (List.mem_map_of_mem hmem) (by rw [hadm n hmem]; decide) h4
    have hbytes (k : Nat) := endings_other (k := k) (es.map (flushEnding (s.axis ax))) (x := s.stopNoted arg)
    have heq := endings_eq (es.map (flushEnding (s.axis ax))) (x := s.stopNoted arg)
    simp only [← flushed_eq_endings] at hreads hbytes heq
    rw [flushEnding_cells, flushEnding_notify] at heq
    obtain ⟨b, hb'⟩ : ∃ b, b = (({ s.axis ax with list := [unboundHead e es] } : Axis).ending .module .stopped).stopBegun
      (stopRates (s.axis ax).setup (some e)) (e.stopRoom (s.axis ax)) := ⟨_, rfl⟩
    have hx := exec_stop_ramp (arg := arg) h hc hw hg hd ho hs hl hk hsl hr hb'
    obtain ⟨y, hy⟩ : ∃ y, y = (s.stopNoted arg).flushed (s.axis ax) es := ⟨_, rfl⟩
    rw [← hy] at hreads hbytes heq hx
    have hax : ((y.setAxis ax b).gatesShut).axis ax = b := axis_setAxis_same _ _ _
    refine ⟨_, hx, ?_⟩
    rw [hax, hb']
    refine ⟨by rw [heq]; rfl, by rw [heq]; rfl, fun g => by simp [State.gateOpen, State.gatesShut], rfl, rfl, rfl, rfl,
      rfl, rfl, rfl, rfl, ⟨_, rfl, hsl.plan rfl hb |>.1, hsl.plan rfl hb |>.2.1⟩, by rw [heq]; rfl, fun n hn h4 => ?_,
      by rw [heq]; rfl, fun k hk => ?_, fun j hj => ?_, by rw [heq]; rfl⟩
    · exact hreads hn h4
    · have := hbytes k hk
      rw [flushEnding_cells] at this
      exact this
    · exact (axis_setAxis_other _ _ hj).trans (by rw [heq]; rfl)
  · change Host.Outcome.next s.stopIfAtRest = _
    unfold State.stopIfAtRest
    rw [if_pos (by rw [h, hrest]; rfl)]
    rfl

end Sys2Proof.Machine
end

section
/-!
What becomes of the order at the head of a list when it is stopped: the end of any head (R45, R130), of a WAITING one
with the orders behind it (R61), the stop of a REFERENCE order (R148); and what all of them leave as it is.
-/

open Sys2Proof Sys2Proof.Machine

namespace Sys2Proof.Machine

variable {s t x y : State} {ax : AxisIx} {a b : Axis} {e n : Entry} {es : List Entry} {code : EndCode} {c : StopCause}
  {abrupt : Bool} {k : Nat}

/-! ### The end of a head in any cell state (R45, R130) -/

/-- A WAITING head's record is removed. -/
def State.unrecorded (y : State) (ax : AxisIx) (e : Entry) : State :=
  if e.status = .waiting then { y with waiting := y.waiting.filter (fun w => w.2 != ax) } else y

/-- What the end of a head leaves of its axis: only a started REFERENCE touches the Reference Controller. -/
def Axis.headLeft (a : Axis) (e : Entry) (es : List Entry) (code : EndCode) : Axis :=
  { a with
    list := es
    ref := if e.kind = .reference && e.status = .active then a.ref.afterRun else a.ref
    referenced := if (e.kind = .reference && e.status = .active) && (code = .stopped || code = .faulted) then false
      else a.referenced }

/-- The axis of a head that ended at standstill. -/
def Axis.finished (a : Axis) (e : Entry) (es : List Entry) (code : EndCode) : Axis :=
  { a.stood.headLeft e es code with state := .idle, stopCause := .none }

theorem unrecorded_setAxis : (y.setAxis ax a).unrecorded ax e = (y.unrecorded ax e).setAxis ax a := by
  unfold State.unrecorded
  split <;> rfl

theorem endHead_any (hl : a.list = e :: es) : (y.setAxis ax a).endHead ax code 0 =
    ((y.unrecorded ax e).headEnded a e code 0).setAxis ax (a.headLeft e es code) := by
  unfold State.endHead
  rw [axis_setAxis_same, hl]
  dsimp only
  rw [updAxis_setAxis]
  change State.endEntry (State.unrecorded _ ax e) ax code 0 e = _
  rw [unrecorded_setAxis]
  unfold State.endEntry
  rw [endCell_setAxis, axis_setAxis_same]
  rfl

theorem finishHead_any (hw : y.watches = []) (hl : a.list = e :: es) : (y.setAxis ax a).finishHead ax code =
    ((y.unrecorded ax e).headEnded a e code 0).setAxis ax (a.finished e es code) := by
  have hl' : a.stood.list = e :: es := by rw [stood_eq, hl]
  have hr : endResult a.stood e code 0 = endResult a e code 0 := by
    unfold endResult
    rw [stood_eq]
  unfold State.finishHead
  rw [stand_setAxis (Or.inl hw), endHead_any hl', setAxisState_setAxis]
  unfold State.headEnded
  rw [hr]
  rfl

/-- What an axis keeps, whatever becomes of its head. -/
structure Axis.keeps (b a : Axis) : Prop where
  commanded : b.commanded = a.commanded
  feedback : b.feedback = a.feedback
  assignDue : a.ref.assignDue = false → b.ref.assignDue = false

theorem keeps_finished : (a.finished e es code).keeps a := by
  refine ⟨stood_commanded, stood_feedback, fun h => ?_⟩
  change (if e.kind = .reference && e.status = .active then a.stood.ref.afterRun else a.stood.ref).assignDue = false
  split
  · rfl
  · rw [stood_eq]
    exact h

/-- The ACTIVE order that ended alone: the axis is IDLE, empty and stands. -/
theorem finished_facts : (a.finished e es code).state = .idle ∧ (a.finished e es code).list = es ∧
    (a.finished e es code).moving = false := ⟨rfl, rfl, stood_moving⟩

/-- The Reference Controller after a run that was stopped (R109, R134, R144). -/
theorem finished_reference (hk : e.kind = .reference) (hs : e.status = .active) :
    (a.finished e es .stopped).referenced = false ∧ (a.finished e es .stopped).ref = a.ref.afterRun := by
  have h : (e.kind = .reference && e.status = .active) = true := by rw [hk, hs]; rfl
  have hr : a.stood.ref = a.ref := by rw [stood_eq]
  unfold Axis.finished Axis.headLeft
  rw [h, hr]
  exact ⟨rfl, rfl⟩

/-! ### A head left alone: it goes on, or ends -/

/-- The head of a list is ended, or goes on, with nothing else of the state changed. -/
def State.fates (y : State) (ax : AxisIx) (a : Axis) (e : Entry) (t : State) : Prop :=
  ∃ b : Axis, b.keeps a ∧ (t = y.setAxis ax b ∨
    ∃ code, t = ((y.unrecorded ax e).headEnded a e code 0).setAxis ax b)

theorem fates_goesOn (h : b.keeps a) : y.fates ax a e (y.setAxis ax b) := ⟨b, h, Or.inl rfl⟩

theorem fates_finishHead (hw : y.watches = []) (hb : b.keeps a) (hl : b.list = e :: es) :
    y.fates ax a e ((y.setAxis ax b).finishHead ax code) := by
  have hr : endResult b e code 0 = endResult a e code 0 := by
    unfold endResult
    rw [hb.commanded, hb.feedback]
  have hk : (b.finished e es code).keeps b := keeps_finished
  refine ⟨b.finished e es code, ⟨hk.commanded.trans hb.commanded, hk.feedback.trans hb.feedback,
    fun h => hk.assignDue (hb.assignDue h)⟩, Or.inr ⟨code, ?_⟩⟩
  rw [finishHead_any hw hl]
  unfold State.headEnded
  rw [hr]

/-! ### Ramps that end an order -/

theorem keeps_stopBegun {rates : Rates} {bound : Option Nat} : ((a.ending c code).stopBegun rates bound).keeps a :=
  ⟨rfl, rfl, id⟩

theorem rampToEnd_eq {rates : Rates} {e' : Entry} : (y.setAxis ax a).rampToEnd ax e' c code rates =
    if ((a.ending c code).stopBegun rates (e'.stopRoom a)).planDone = true
    then (y.setAxis ax ((a.ending c code).stopBegun rates (e'.stopRoom a))).finishHead ax code
    else y.setAxis ax ((a.ending c code).stopBegun rates (e'.stopRoom a)) := by
  unfold State.rampToEnd
  dsimp only
  rw [updAxis_setAxis, axis_setAxis_same, beginStop_setAxis, axis_setAxis_same]
  rfl

theorem fates_rampToEnd {rates : Rates} {e' : Entry} (hw : y.watches = []) (hl : a.list = e :: es) :
    y.fates ax a e ((y.setAxis ax a).rampToEnd ax e' c code rates) := by
  rw [rampToEnd_eq]
  split
  · exact fates_finishHead hw keeps_stopBegun hl
  · exact fates_goesOn keeps_stopBegun

/-- How far the stop of a REFERENCE order may lead (R148). -/
def Axis.referenceRoom (a : Axis) (e : Entry) : Option Nat :=
  if a.ref.phase = .offset then e.stopRoom a else none

/-- The stop of a REFERENCE order: at once, or by a ramp (R148). -/
theorem stopReference_eq : (y.setAxis ax a).stopReference ax e c abrupt =
    if (a.moving && !a.ref.phase.creeps && !abrupt) = true then
      if ((a.ending c .stopped).stopBegun (stopRates a.setup (some e)) (a.referenceRoom e)).planDone = true
      then (y.setAxis ax ((a.ending c .stopped).stopBegun (stopRates a.setup (some e))
        (a.referenceRoom e))).finishHead ax .stopped
      else y.setAxis ax ((a.ending c .stopped).stopBegun (stopRates a.setup (some e)) (a.referenceRoom e))
    else (y.setAxis ax a).finishHead ax .stopped := by
  unfold State.stopReference
  dsimp only
  rw [axis_setAxis_same, setAxisState_setAxis, updAxis_setAxis, beginStop_setAxis, axis_setAxis_same]
  rfl

theorem fates_stopReference {e' : Entry} (hw : y.watches = []) (hl : a.list = e :: es) :
    y.fates ax a e ((y.setAxis ax a).stopReference ax e' c abrupt) := by
  rw [stopReference_eq]
  split
  · split
    · exact fates_finishHead hw keeps_stopBegun hl
    · exact fates_goesOn keeps_stopBegun
  · exact fates_finishHead hw ⟨rfl, rfl, id⟩ hl

/-- Rates of a REFERENCE order's stop: LINEAR at the stop decel (R13, R68). -/
theorem slows_reference (hk : e.kind = .reference) (h : a.canRamp a.setup.stopDecel) :
    a.Slows (stopRates a.setup (some e)) := by
  have hr : stopRates a.setup (some e) = { defaultRates a.setup with dec := a.setup.stopDecel } := by
    have ho : orderRates a.setup e = defaultRates a.setup := if_neg (by rw [hk]; decide)
    exact congrArg (fun r : Rates => { r with dec := a.setup.stopDecel }) ho
  rw [hr]
  exact ⟨rfl, rfl, h.1, h.2.1⟩

/-- The ramp by which a REFERENCE order stops (R87, R148). -/
theorem stopReference_ramps (hk : e.kind = .reference) (hm : a.moving = true)
    (hp : a.ref.phase ∈ [RefPhase.approach, .seekBack, .offset]) (h : a.canRamp a.setup.stopDecel)
    (ho : a.ref.phase = .offset → a.prof.dir = e.dir ∧ 0 < e.remaining a.commanded.toInt) :
    (y.setAxis ax a).stopReference ax e c false =
      y.setAxis ax ((a.ending c .stopped).stopBegun (stopRates a.setup (some e)) (a.referenceRoom e)) ∧
    ((a.ending c .stopped).stopBegun (stopRates a.setup (some e)) (a.referenceRoom e)).ramps a a.setup.stopDecel
      (if a.ref.phase = .offset then min (e.remaining a.commanded.toInt).toNat a.rangeBound else a.rangeBound) := by
  have hc : a.ref.phase.creeps = false := by
    simp only [List.mem_cons, List.not_mem_nil, or_false] at hp
    rcases hp with hp | hp | hp <;> rw [hp] <;> rfl
  have hsl := slows_reference hk h
  have hb : a.stopBound (a.referenceRoom e) =
      if a.ref.phase = .offset then min (e.remaining a.commanded.toInt).toNat a.rangeBound else a.rangeBound := by
    unfold Axis.referenceRoom
    split <;> rfl
  have hpos : 0 < a.stopBound (a.referenceRoom e) := by
    rw [hb]
    split
    · rename_i hoff
      have := (ho hoff).2
      exact lt_min (by omega) h.2.2
    · exact h.2.2
  have hdone := stopBegun_not_done (a := a.ending c .stopped) (rates := stopRates a.setup (some e))
    (bound := a.referenceRoom e) (stopPlan_length_pos (a := a.ending c .stopped) hsl.form (hsl.floor ▸ hsl.fast) hsl.dec hpos)
    (stopPlan_facts (a := a.ending c .stopped) hsl.form (hsl.floor ▸ hsl.fast) _).1
  have hramps := hsl.ramps (c := c) (code := .stopped) (a.referenceRoom e)
  rw [hb, stopRates_dec] at hramps
  refine ⟨?_, hramps⟩
  rw [stopReference_eq, if_pos (by rw [hm, hc]; rfl), if_neg (by rw [hdone]; exact Bool.noConfusion)]

/-- A REFERENCE order that stands or creeps ends at once (R148). -/
theorem stopReference_atOnce (h : abrupt = true ∨ a.moving = false ∨ a.ref.phase.creeps = true) :
    (y.setAxis ax a).stopReference ax e c abrupt = (y.setAxis ax a).finishHead ax .stopped := by
  rw [stopReference_eq]
  refine if_neg ?_
  rcases h with h | h | h <;> simp [h]

/-! ### A WAITING head and what stands behind it (R61) -/

theorem endAtOnce_flush (hw : y.watches = []) (hl : a.list = e :: es) : (y.setAxis ax a).endAtOnce ax code true =
    (((y.unrecorded ax e).headEnded a e code 0).flushed a es).setAxis ax (a.finished e [] code) := by
  have hk : (a.finished e es code).keeps a := keeps_finished
  unfold State.endAtOnce
  dsimp only
  rw [if_pos rfl, finishHead_any hw hl, flushAll_setAxis,
    flushed_congr (b := { a.finished e es code with list := [] }) (a := a) hk.commanded hk.feedback]
  exact settle_eq_self (Or.inr (by rw [axis_setAxis_same]))

end Sys2Proof.Machine
end

section
/-!
The silence actions of one axis (R171): what each makes of the head, once the orders behind it are flushed.
-/

open Sys2Proof Sys2Proof.Machine

namespace Sys2Proof.Machine

variable {s t x y : State} {ax : AxisIx} {a b : Axis} {e n : Entry} {es : List Entry} {code : EndCode}

/-! ### What is made of the head (R171) -/

/-- What a silence action makes of a head. -/
inductive Silencing where
  | keep
  | replan
  | finish (code : EndCode)
  | ramp
  | reference (abrupt : Bool)

/-- How a head that runs or holds is stopped. -/
def Entry.silencing (e : Entry) (abrupt : Bool) : Silencing :=
  match e.kind with
  | .dwell => .finish .stopped
  | .reference => .reference abrupt
  | .moveAbs | .moveRel | .jog => if abrupt then .finish .stopped else .ramp

/-- What the silence action of an axis makes of its head. -/
def Axis.silencing (a : Axis) (e : Entry) (es : List Entry) : Silencing :=
  match a.setup.silence with
  | .carryOn => if a.state = .running && (es.head?.map (·.bound)).getD false then .replan else .keep
  | .rampStop =>
      if a.state = .stopping then .keep else if a.state = .held then .finish .stopped else e.silencing false
  | .abruptStop =>
      if a.state = .stopping then .finish a.rampEnd else if a.state = .held then .finish .stopped else e.silencing true

/-- The head so treated. -/
def State.silenceHead (y : State) (ax : AxisIx) (a : Axis) (e : Entry) : Silencing → State
  | .keep => y
  | .replan => (y.replan ax a.prof.accel).arriveIfDue ax
  | .finish code => y.finishHead ax code
  | .ramp => y.rampToEnd ax e .silence .stopped (stopRates a.setup (some e))
  | .reference abrupt => y.stopReference ax e .silence abrupt

/-- An axis with a head that a silence action can stop. -/
def Axis.stoppable (a : Axis) : Prop :=
  a.state = .running ∨ a.state = .holding ∨ a.state = .held ∨ (a.state = .stopping ∧ a.stopCause ≠ .fault)

theorem moduleStopAxis_head {abrupt : Bool} (hl : a.list = e :: es) (hs : a.state = .running ∨ a.state = .holding) :
    (x.setAxis ax a).moduleStopAxis ax .silence abrupt =
      ((x.setAxis ax a).flushTail ax).silenceHead ax a e (e.silencing abrupt) := by
  unfold State.moduleStopAxis Entry.silencing
  simp only [axis_setAxis_same, hl, List.head?_cons]
  cases hk : e.kind <;> rcases hs with hs | hs <;> simp only [hs, hk] <;> cases abrupt <;> rfl

/-- A silence action flushes what stands behind the head, and then acts on the head. -/
theorem silenceAxis_flushes (hl : a.list = e :: es) (hs : a.stoppable) : (x.setAxis ax a).silenceAxis ax =
    ((x.flushed a es).setAxis ax { a with list := [unboundHead e es] }).silenceHead ax a e (a.silencing e es) := by
  rw [← flushTail_setAxis hl]
  unfold State.silenceAxis
  rw [axis_setAxis_same]
  unfold Axis.silencing
  cases hsil : a.setup.silence
  case carryOn =>
    unfold State.silenceContinue
    simp only [axis_setAxis_same, hl, List.tail_cons]
    rcases hs with hs | hs | hs | ⟨hs, hc⟩
    · simp only [hs, decide_true, Bool.true_and]
      split <;> rfl
    · simp [hs, State.silenceHead]
    · simp [hs, State.silenceHead]
    · simp [hs, hc, State.silenceHead]
  case rampStop =>
    rcases hs with hs | hs | hs | ⟨hs, hc⟩
    · simp only [hs, reduceCtorEq, if_false]
      exact moduleStopAxis_head hl (Or.inl hs)
    · simp only [hs, reduceCtorEq, if_false]
      exact moduleStopAxis_head hl (Or.inr hs)
    · simp [hs, State.moduleStopAxis, axis_setAxis_same, hl, State.silenceHead]
    · simp [hs, hc, State.silenceContinue, axis_setAxis_same, State.silenceHead]
  case abruptStop =>
    rcases hs with hs | hs | hs | ⟨hs, hc⟩
    · simp only [hs, reduceCtorEq, if_false]
      exact moduleStopAxis_head hl (Or.inl hs)
    · simp only [hs, reduceCtorEq, if_false]
      exact moduleStopAxis_head hl (Or.inr hs)
    · simp [hs, State.moduleStopAxis, axis_setAxis_same, hl, State.silenceHead]
    · simp [hs, hc, State.moduleStopAxis, axis_setAxis_same, State.silenceHead]

/-- A WAITING head ends under every silence action, and what stands behind it is flushed (R61, R171). -/
theorem silenceAxis_waiting (hl : a.list = e :: es) (hs : a.state = .waiting) :
    (x.setAxis ax a).silenceAxis ax = (x.setAxis ax a).endAtOnce ax .stopped true := by
  unfold State.silenceAxis State.silenceContinue State.moduleStopAxis
  simp only [axis_setAxis_same, hs, hl, List.head?_cons]
  cases a.setup.silence <;> rfl

/-- At rest, and on the way to FAULTED, an axis is left as it is. -/
theorem silenceAxis_inert (h : (x.axis ax).atRest = true ∨ ((x.axis ax).state = .stopping ∧ (x.axis ax).stopCause = .fault)) :
    x.silenceAxis ax = x := by
  unfold State.silenceAxis State.silenceContinue State.moduleStopAxis
  rcases h with h | ⟨h, hc⟩
  · unfold Axis.atRest at h
    cases hs : (x.axis ax).state <;> simp only [hs, reduceCtorEq] at h <;>
      cases (x.axis ax).setup.silence <;> simp [hs]
  · cases (x.axis ax).setup.silence <;> simp [h, hc]

/-! ### The head of a pair whose binding is dropped, planned to its target (R60, R171) -/

/-- A RUNNING move whose binding has been dropped is planned to its target, without another decision. -/
theorem replan_unboundHead (hl : a.list = [e]) (hk : e.kind.positional = true) (hd : e.decided = true) {a0 : Int} :
    (x.setAxis ax a).replan ax a0 = x.setAxis ax (a.planned a0 e a.setup.floor) := by
  rw [replan_unbound hl (fun n more h => by cases h)]
  exact planAndDecide_undue hl hk fun h => Bool.noConfusion (hd.symm.trans h.2.1)

theorem fates_replan {a0 : Int} (hw : y.watches = []) (hr : a.state = .running) (hl : a.list = [e])
    (hk : e.kind.positional = true) (hd : e.decided = true) :
    y.fates ax a e (((y.setAxis ax a).replan ax a0).arriveIfDue ax) := by
  have hkeeps : (a.planned a0 e a.setup.floor).keeps a := ⟨rfl, rfl, id⟩
  rw [replan_unboundHead hl hk hd]
  unfold State.arriveIfDue
  rw [axis_setAxis_same]
  split
  · have harr : (y.setAxis ax (a.planned a0 e a.setup.floor)).arrive ax =
        (y.setAxis ax (a.planned a0 e a.setup.floor)).finishHead ax .completed := by
      have hst : (a.planned a0 e a.setup.floor).state = .running := hr
      have hli : (a.planned a0 e a.setup.floor).list = [e] := hl
      unfold State.arrive
      simp only [axis_setAxis_same, hst, hli]
      cases hkind : e.kind <;> simp [hkind, MotionKind.positional] at hk ⊢
    rw [harr]
    have := fates_finishHead (y := y) (ax := ax) (code := .completed) (e := e) (es := []) hw hkeeps hl
    have hse := finishHead_any (y := y) (ax := ax) (code := .completed) (e := e) (es := []) hw
      (a := a.planned a0 e a.setup.floor) hl
    rw [settle_eq_self]
    · exact this
    · rw [hse, axis_setAxis_same]
      exact Or.inr rfl
  · exact fates_goesOn hkeeps

/-! ### Whatever becomes of the head (R171) -/

theorem unboundHead_of_bound (h : (es.head?.map (·.bound)).getD false = true) :
    unboundHead e es = { e with fly := .declined 5, decided := true } := if_pos h

/-- A bound entry stands behind a running move that flies into it (R57 to R60). -/
theorem bound_behind_move (hb : a.bindingOk) (hl : a.list = e :: es)
    (h : (es.head?.map (·.bound)).getD false = true) : e.kind.positional = true ∧ e.fly = .taken := by
  have h1 := (hb.1 e (by rw [hl]; rfl)).2
  cases es with
  | nil => cases h
  | cons n more =>
      obtain ⟨-, hk, -, -, hf⟩ := h1 n (by rw [hl]; rfl) h
      exact ⟨hk, hf⟩

theorem silencing_replan (h : a.silencing e es = .replan) :
    a.state = .running ∧ (es.head?.map (·.bound)).getD false = true := by
  unfold Axis.silencing Entry.silencing at h
  cases hs : a.setup.silence <;> simp only [hs] at h
  · split at h
    · rename_i hc
      simpa using hc
    · cases h
  all_goals (split at h; · cases h)
  all_goals (split at h; · cases h)
  all_goals cases hk : e.kind <;> simp [hk] at h

/-- Behind a silence action on an axis with a stoppable head, that head has ended or goes on, and what stood behind it
has been flushed. -/
theorem fates_silenceAxis (hw : x.watches = []) (hb : a.bindingOk) (hl : a.list = e :: es) (hs : a.stoppable) :
    (x.flushed a es).fates ax { a with list := [unboundHead e es] } (unboundHead e es)
      ((x.setAxis ax a).silenceAxis ax) := by
  have hwf : (x.flushed a es).watches = [] := by
    rw [flushed_eq_endings]
    exact (endings_fields _).2.2.2.trans hw
  rw [silenceAxis_flushes hl hs]
  cases hsil : a.silencing e es with
  | keep => exact fates_goesOn ⟨rfl, rfl, id⟩
  | replan =>
      obtain ⟨hr, hbound⟩ := silencing_replan hsil
      refine fates_replan hwf hr rfl ?_ (by rw [unboundHead_of_bound hbound])
      rw [(unboundHead_fields e es).2.2.2.1]
      exact (bound_behind_move hb hl hbound).1
  | finish code => exact fates_finishHead hwf ⟨rfl, rfl, id⟩ rfl
  | ramp => exact fates_rampToEnd hwf rfl
  | reference abrupt => exact fates_stopReference hwf rfl

end Sys2Proof.Machine
end

section
/-!
SILENT entered (O51; R170, R171): what the silence actions leave of the module, and what each action makes of a head.
-/

open Sys2Proof Sys2Proof.Machine

namespace Sys2Proof.Machine

variable {s t x y : State} {ax : AxisIx} {a b : Axis} {e e' n : Entry} {es : List Entry} {code : EndCode} {r : Race}

/-! ### What endings leave of the module -/

/-- Nothing but memory, chain, RETURN, waiting records and one axis, whose positions stay, differs. -/
structure State.OnlyEnds (x : State) (ax : AxisIx) (t : State) : Prop where
  rest : t = { x with mem := t.mem, chain := t.chain, causes := t.causes, waiting := t.waiting, axes := t.axes }
  state : t.causes.state = x.causes.state
  others : x.otherAxes t ax
  keeps : (t.axis ax).keeps (x.axis ax)

theorem endings_form (ds : List Ending) : ∃ m k, x.endings ds =
    { x with mem := m, chain := x.chain ++ ds.map (·.cell), causes := { x.causes with ret := k } } :=
  ⟨_, _, endings_eq ds⟩

theorem unrecorded_form (y : State) (ax : AxisIx) (e : Entry) : ∃ w, y.unrecorded ax e = { y with waiting := w } := by
  unfold State.unrecorded
  split
  · exact ⟨_, rfl⟩
  · exact ⟨y.waiting, rfl⟩

theorem onlyEnds_fates (ha : b.keeps (x.axis ax)) (ht : (x.flushed a es).fates ax b e t) : x.OnlyEnds ax t := by
  obtain ⟨m, k, hy⟩ := endings_form (x := x) (es.map (flushEnding a))
  rw [← flushed_eq_endings] at hy
  obtain ⟨c, hc, h⟩ := ht
  have hkeeps : c.keeps (x.axis ax) := ⟨hc.commanded.trans ha.commanded, hc.feedback.trans ha.feedback,
    fun h => hc.assignDue (ha.assignDue h)⟩
  rw [hy] at h
  rcases h with rfl | ⟨code, rfl⟩
  · exact ⟨rfl, rfl, fun j hj => axis_setAxis_other _ _ hj, by rw [axis_setAxis_same]; exact hkeeps⟩
  · obtain ⟨w, hw⟩ := unrecorded_form { x with
      mem := m, chain := x.chain ++ (es.map (flushEnding a)).map (·.cell), causes := { x.causes with ret := k } } ax e
    rw [hw]
    exact ⟨rfl, rfl, fun j hj => axis_setAxis_other _ _ hj, by rw [axis_setAxis_same]; exact hkeeps⟩

theorem onlyEnds_waiting (h : b.keeps (x.axis ax)) :
    x.OnlyEnds ax ((((x.unrecorded ax e).headEnded a e code 0).flushed a es).setAxis ax b) := by
  obtain ⟨w, hw⟩ := unrecorded_form x ax e
  obtain ⟨m, k, hy⟩ := endings_form (x := (x.unrecorded ax e).headEnded a e code 0) (es.map (flushEnding a))
  rw [← flushed_eq_endings] at hy
  rw [hy, hw]
  exact ⟨rfl, rfl, fun j hj => axis_setAxis_other _ _ hj, by rw [axis_setAxis_same]; exact h⟩

/-! ### What is read of the orders (R46) -/

/-- What was flushed reads so, whatever becomes of the head (R46). -/
theorem fates_flushed (hm : x.memoryWf = true) (hn : (e'.cell :: cellsOf es).Nodup)
    (ht : (x.flushed a es).fates ax b e' t) (hmem : n ∈ es) (hs : n.status = .admitted) (h4 : n.cell < 480) :
    t.endReads n.cell 5 0 a.commanded a.feedback 0 := by
  rw [List.nodup_cons] at hn
  have hreads := endings_flushed (x := x) (ds := es.map (flushEnding a)) hm (by rw [flushEnding_cells]; exact hn.2)
    (List.mem_map_of_mem hmem) (by rw [hs]; decide) h4
  rw [← flushed_eq_endings] at hreads
  obtain ⟨c, -, rfl | ⟨code, rfl⟩⟩ := ht
  · exact hreads
  · obtain ⟨w, hw⟩ := unrecorded_form (x.flushed a es) ax e'
    have hne : n.cell ≠ e'.cell := fun h => hn.1 (h ▸ List.mem_map_of_mem hmem)
    refine endReads_of_own (x := x.flushed a es) (fun k hk => ?_) hreads
    rw [hw]
    exact ended_own (x := { x.flushed a es with waiting := w }) (c := e'.opts.notify) hk hne

/-- A WAITING head reads STOPPED, and what stood behind it FLUSHED (R45, R46, R61). -/
theorem waiting_reads (hm : x.memoryWf = true) (hn : (e.cell :: cellsOf es).Nodup)
    (ht : t = (((x.unrecorded ax e).headEnded a e code 0).flushed a es).setAxis ax b) :
    (∀ n ∈ es, n.status = .admitted → n.cell < 480 → t.endReads n.cell 5 0 a.commanded a.feedback 0) ∧
      (e.status = .waiting → e.cell < 480 →
        t.endReads e.cell (bytes4 code.code 0 0 0) 0 a.commanded a.feedback 0) := by
  subst ht
  rw [List.nodup_cons] at hn
  obtain ⟨w, hw⟩ := unrecorded_form x ax e
  have hwf : ({ x with waiting := w } : State).memoryWf = true := hm
  rw [hw, flushed_eq_endings]
  refine ⟨fun n hmem hs h4 => ?_, fun hs h4 => ?_⟩
  · exact endings_flushed (memoryWf_ended hwf) (by rw [flushEnding_cells]; exact hn.2) (List.mem_map_of_mem hmem)
      (by rw [hs]; decide) h4
  · have h := ended_reads (x := { x with waiting := w }) (d := ⟨e.cell, endResult a e code 0, e.opts.notify⟩) hwf h4
    have hown (k : Nat) (hk : ownByte e.cell k) := endings_own (es.map (flushEnding a))
      (x := ({ x with waiting := w } : State).headEnded a e code 0) (by rw [flushEnding_cells]; exact hn.1) hk
    have hr : endResult a e code 0 = { code := code.code, cmd := a.commanded, fb := a.feedback } := by
      simp [endResult, hs]
    refine endReads_of_own hown ?_
    have hcw : (endResult a e code 0).codeWord = bytes4 code.code 0 0 0 := by rw [hr]; rfl
    have hel : (endResult a e code 0).elapsed = 0 := by rw [hr]
    change State.endReads _ e.cell (endResult a e code 0).codeWord 0 a.commanded a.feedback
      (BitVec.ofNat 32 (endResult a e code 0).elapsed) at h
    rw [hcw, hel] at h
    exact h

/-- The head that ended behind what was flushed, and the axis then (R45, R47). -/
theorem finished_spec (hm : x.memoryWf = true) (hs : e'.status = .active) (h4 : e'.cell < 480)
    (hf : e'.kind.moves = false → e'.fly = .none)
    (ht : t = (((x.flushed a es).unrecorded ax e').headEnded b e' code 0).setAxis ax (b.finished e' [] code)) :
    (t.axis ax).state = .idle ∧ (t.axis ax).list = [] ∧ (t.axis ax).moving = false ∧
      t.chain = x.chain ++ cellsOf es ++ [e'.cell] ∧
      t.endReads e'.cell (bytes4 code.code 0 e'.fly.bits 0) 0 b.commanded b.feedback (BitVec.ofNat 32 e'.elapsed) := by
  have hun : (x.flushed a es).unrecorded ax e' = x.flushed a es := if_neg (by rw [hs]; decide)
  rw [hun] at ht
  have hwf : (x.flushed a es).memoryWf = true := by
    rw [flushed_eq_endings]
    exact memoryWf_endings _ hm
  have hch : (x.flushed a es).chain = x.chain ++ cellsOf es := by
    rw [flushed_eq_endings, endings_chain, flushEnding_cells]
  subst ht
  rw [axis_setAxis_same]
  obtain ⟨h1, h2, h3⟩ := finished_facts (a := b) (e := e') (es := []) (code := code)
  exact ⟨h1, h2, h3, congrArg (· ++ [e'.cell]) hch, headEnded_readsEnd hwf h4 hs hf 0⟩

/-! ### SILENT entered (R170) -/

/-- The module as SILENT is entered. -/
def State.silentEntered (s : State) : State := { s.recordFault .module 103 0 0xFFFF with
  modState := .silent
  supTimer := none
  causes := { (s.recordFault .module 103 0 0xFFFF).causes with state := true } }

theorem recordFault_form (s : State) (sc : Scope) (c d m : Nat) :
    ∃ f k, s.recordFault sc c d m = { s with faults := f, causes := { s.causes with fault := k } } := by
  unfold State.recordFault
  cases s.faultEntry sc with
  | none => exact ⟨_, _, rfl⟩
  | some f =>
      dsimp only
      split
      · exact ⟨_, _, rfl⟩
      · exact ⟨_, s.causes.fault, rfl⟩

theorem silentEntered_form (s : State) : ∃ f k, s.silentEntered =
    { s with faults := f, modState := .silent, supTimer := none, causes := k } := by
  obtain ⟨f, k, h⟩ := recordFault_form s .module 103 0 0xFFFF
  refine ⟨f, { s.causes with fault := k, state := true }, ?_⟩
  unfold State.silentEntered
  rw [h]

/-- SUPERVISION_EXPIRY where one axis alone does not stand empty (R170, R171). -/
theorem exec_supervisionExpiry (h : s.modState = .running) (h0 : s.supTimer = some 0) (hr : r.collects = [])
    (hc : s.calm = true) (ho : ∀ j, j ≠ ax → (s.axis j).standsEmpty)
    (ht : s.silentEntered.OnlyEnds ax t) (hx : s.silentEntered.silenceAxis ax = t) :
    exec (.supervisionExpiry r) s = .next t := by
  obtain ⟨f, k, hform⟩ := silentEntered_form s
  have haxis (j : AxisIx) : s.silentEntered.axis j = s.axis j := by rw [hform]; rfl
  have hother (y : State) (hy : s.silentEntered.otherAxes y ax) (j : AxisIx) (hj : j ≠ ax) : (y.axis j).standsEmpty := by
    rw [hy j hj, haxis]
    exact ho j hj
  have hp : (pickOrder r.blocks allAxes).filter (· == ax) = [ax] := by
    refine List.perm_singleton.1 (((pickOrder_perm _ _).filter _).trans ?_)
    fin_cases ax <;> exact List.Perm.refl _
  have hfold : (pickOrder r.blocks allAxes).foldl State.silenceAxis s.silentEntered = t := by
    rw [foldl_acting (E := fun y => s.silentEntered.otherAxes y ax) (p := (· == ax)) (fun y j hy hj => ?_), hp]
    · exact hx
    · rw [hp]
      exact ⟨fun _ _ => rfl, by rw [hx]; exact ht.others⟩
    · exact silenceAxis_inert (Or.inl (hother y hy j (by simpa using hj)).1)
  have hdue : s.supervisionDue = true := by
    unfold State.supervisionDue
    rw [h, h0]
    rfl
  change Host.Outcome.next (if s.supervisionDue then s.close r (s.goSilent (pickOrder r.blocks allAxes)) else s) = _
  rw [if_pos hdue]
  change Host.Outcome.next (s.close r ((pickOrder r.blocks allAxes).foldl State.silenceAxis s.silentEntered)) = _
  obtain ⟨hag, hdue⟩ := calm_iff.1 hc
  have hmod : t.modState = .silent := by rw [ht.rest, hform]
  have hcalm : t.calm = true := by
    refine calm_iff.2 ⟨by rw [ht.rest, hform]; exact hag, fun j => ?_⟩
    by_cases hj : j = ax
    · subst hj
      exact ht.keeps.assignDue (by rw [haxis]; exact hdue j)
    · rw [ht.others j hj, haxis]
      exact hdue j
  rw [hfold, close_of_uncollected hr, finish_of_quiet]
  unfold State.quiet
  rw [hcalm, hmod]
  rfl

end Sys2Proof.Machine
end

section
/-!
The silence actions, head by head (O51; R60, R87, R148, R171).
-/

open Sys2Proof Sys2Proof.Machine

namespace Sys2Proof.Machine

variable {s t x y : State} {ax : AxisIx} {a b : Axis} {e e' n : Entry} {es : List Entry} {code : EndCode} {r : Race}

theorem flushed_chain : (x.flushed a es).chain = x.chain ++ cellsOf es := by
  rw [flushed_eq_endings, endings_chain, flushEnding_cells]

theorem flushed_watches (hw : x.watches = []) : (x.flushed a es).watches = [] := by
  rw [flushed_eq_endings]
  exact (endings_fields _).2.2.2.trans hw

/-! ### What each action makes of the axis -/

theorem silence_keeps (hl : a.list = e :: es) (hs : a.stoppable) (hsil : a.silencing e es = .keep)
    (ht : (x.setAxis ax a).silenceAxis ax = t) :
    t.axis ax = { a with list := [unboundHead e es] } ∧ t.chain = x.chain ++ cellsOf es := by
  rw [silenceAxis_flushes hl hs, hsil] at ht
  subst ht
  exact ⟨axis_setAxis_same _ _ _, flushed_chain⟩

theorem silence_replans (hl : a.list = e :: es) (hb : a.bindingOk) (hs : a.stoppable) (hsil : a.silencing e es = .replan)
    (hd : 0 < e.remaining a.commanded.toInt) (ht : (x.setAxis ax a).silenceAxis ax = t) :
    (t.axis ax).list = [unboundHead e es] ∧ (t.axis ax).state = .running ∧ t.chain = x.chain ++ cellsOf es ∧
      (t.axis ax).prof.speedSq = a.prof.speedSq ∧ ∃ q, (t.axis ax).prof.plan = some q ∧ q.moved = 0 ∧
        q.endSpeed = a.setup.floor ∧ q.length = (e.remaining a.commanded.toInt).toNat := by
  obtain ⟨hr, hbound⟩ := silencing_replan hsil
  obtain ⟨-, -, -, hk, -, htgt, hdir, -⟩ := unboundHead_fields e es
  have hdist : distanceTo a.commanded (unboundHead e es).target (unboundHead e es).dir =
      (e.remaining a.commanded.toInt).toNat := by
    rw [htgt, hdir]
    rfl
  have hpos : 0 < distanceTo a.commanded (unboundHead e es).target (unboundHead e es).dir := by rw [hdist]; omega
  rw [silenceAxis_flushes hl hs, hsil] at ht
  change State.arriveIfDue (State.replan _ ax a.prof.accel) ax = t at ht
  rw [replan_unboundHead (a := { a with list := [unboundHead e es] }) rfl
    (by rw [hk]; exact (bound_behind_move hb hl hbound).1) (by rw [unboundHead_of_bound hbound])] at ht
  rw [arriveIfDue_planned (b := a) (l := [unboundHead e es]) hpos] at ht
  subst ht
  rw [axis_setAxis_same]
  obtain ⟨h1, -, h3, -, h5⟩ := headPlan_facts { a with list := [unboundHead e es] } a.prof.accel (unboundHead e es)
    a.setup.floor
  exact ⟨rfl, hr, flushed_chain, rfl, _, rfl, h1, h5, h3.trans hdist⟩

theorem silence_finishes (hw : x.watches = []) (hm : x.memoryWf = true) (hl : a.list = e :: es) (hb : a.bindingOk)
    (hact : e.status = .active) (h4 : e.cell < 480) (hf : e.kind.moves = false → e.fly = .none)
    (ht : (((x.flushed a es).setAxis ax { a with list := [unboundHead e es] }).finishHead ax code) = t) :
    ((t.axis ax).state = .idle ∧ (t.axis ax).list = [] ∧ (t.axis ax).moving = false ∧
      t.chain = x.chain ++ cellsOf es ++ [e.cell] ∧
      t.endReads e.cell (bytes4 code.code 0 (unboundHead e es).fly.bits 0) 0 a.commanded a.feedback
        (BitVec.ofNat 32 e.elapsed)) ∧
      (e.kind = .reference → code = .stopped → (t.axis ax).referenced = false ∧ (t.axis ax).ref = a.ref.afterRun) := by
  obtain ⟨hc, hst, -, hk, -, -, -, hel⟩ := unboundHead_fields e es
  have hf' : (unboundHead e es).kind.moves = false → (unboundHead e es).fly = .none := by
    intro hmv
    rw [hk] at hmv
    by_cases hbound : (es.head?.map (·.bound)).getD false = true
    · exact absurd (positional_moves (bound_behind_move hb hl hbound).1) (by rw [hmv]; decide)
    · rw [show unboundHead e es = e from if_neg hbound]
      exact hf hmv
  rw [finishHead_any (flushed_watches hw) rfl] at ht
  have hspec := finished_spec hm (hst.trans hact) (hc ▸ h4) hf' ht.symm
  rw [hc, hel] at hspec
  refine ⟨hspec, fun href hcode => ?_⟩
  subst hcode
  subst ht
  rw [axis_setAxis_same]
  exact finished_reference (a := { a with list := [unboundHead e es] }) (hk.trans href) (hst.trans hact)

theorem silence_ramps (hl : a.list = e :: es) (hs : a.stoppable) (hsil : a.silencing e es = .ramp)
    (hk : e.kind.moves = true) (hsm : e.opts.smooth = false) (hcan : a.canRamp a.setup.stopDecel)
    (hd : 0 < e.remaining a.commanded.toInt) (ht : (x.setAxis ax a).silenceAxis ax = t) :
    (t.axis ax).state = .stopping ∧ (t.axis ax).stopCause = .silence ∧ (t.axis ax).rampEnd = .stopped ∧
      (t.axis ax).list = [unboundHead e es] ∧ t.chain = x.chain ++ cellsOf es ∧
      (t.axis ax).ramps a a.setup.stopDecel (min (e.remaining a.commanded.toInt).toNat a.rangeBound) := by
  have hsl : ({ a with list := [unboundHead e es] } : Axis).Slows (stopRates a.setup (some e)) := by
    obtain ⟨h1, h2⟩ := stopRates_linear a.setup hk hsm
    exact ⟨h1, h2, hcan.1, hcan.2.1⟩
  have hroom : 0 < Axis.stopBound { a with list := [unboundHead e es] }
      (e.stopRoom { a with list := [unboundHead e es] }) := by
    refine lt_min ?_ hcan.2.2
    change 0 < (e.remaining a.commanded.toInt).toNat
    omega
  rw [silenceAxis_flushes hl hs, hsil] at ht
  change State.rampToEnd _ ax e .silence .stopped (stopRates a.setup (some e)) = t at ht
  rw [hsl.rampToEnd hroom] at ht
  subst ht
  rw [axis_setAxis_same]
  exact ⟨rfl, rfl, rfl, rfl, flushed_chain, hsl.ramps (c := .silence) (code := .stopped) _⟩

theorem silence_reference_ramps (hl : a.list = e :: es) (hs : a.stoppable)
    (hsil : a.silencing e es = .reference false) (hk : e.kind = .reference) (hm : a.moving = true)
    (hp : a.ref.phase ∈ [RefPhase.approach, .seekBack, .offset]) (h : a.canRamp a.setup.stopDecel)
    (ho : a.ref.phase = .offset → a.prof.dir = e.dir ∧ 0 < e.remaining a.commanded.toInt)
    (ht : (x.setAxis ax a).silenceAxis ax = t) :
    (t.axis ax).state = .stopping ∧ (t.axis ax).stopCause = .silence ∧ (t.axis ax).rampEnd = .stopped ∧
      (t.axis ax).list = [unboundHead e es] ∧ t.chain = x.chain ++ cellsOf es ∧ (t.axis ax).ref = a.ref ∧
      (t.axis ax).ramps a a.setup.stopDecel (if a.ref.phase = .offset then
        min (e.remaining a.commanded.toInt).toNat a.rangeBound else a.rangeBound) := by
  rw [silenceAxis_flushes hl hs, hsil] at ht
  change State.stopReference _ ax e .silence false = t at ht
  obtain ⟨h1, h2⟩ := stopReference_ramps (y := x.flushed a es) (ax := ax) (c := .silence)
    (a := { a with list := [unboundHead e es] }) hk hm hp h ho
  rw [h1] at ht
  subst ht
  rw [axis_setAxis_same]
  exact ⟨rfl, rfl, rfl, rfl, flushed_chain, rfl, h2⟩

end Sys2Proof.Machine
end

section
/-!
The statement on the silence actions (O51; R70, R169 to R171).
-/

open Sys2Proof Sys2Proof.Machine

namespace Sys2Proof.Machine

variable {s t x : State} {ax : AxisIx} {a : Axis} {e : Entry} {es : List Entry} {r : Race}

/-! ### Which axes a silence action can meet -/

theorem axis_cases (a : Axis) : (a.atRest = true ∨ (a.state = .stopping ∧ a.stopCause = .fault)) ∨
    a.state = .waiting ∨ a.stoppable := by
  unfold Axis.atRest Axis.stoppable
  by_cases hc : a.stopCause = .fault <;> cases a.state <;> simp [hc]

/-- What a WAITING head and the orders behind it come to (R61, R171). -/
theorem silence_waiting (hw : x.watches = []) (hl : a.list = e :: es) (hs : a.state = .waiting)
    (ht : (x.setAxis ax a).silenceAxis ax = t) :
    t = (((x.unrecorded ax e).headEnded a e .stopped 0).flushed a es).setAxis ax (a.finished e [] .stopped) := by
  rw [← ht, silenceAxis_waiting hl hs, endAtOnce_flush hw hl]

theorem silence_waiting_facts (hst : e.status = .waiting)
    (ht : t = (((x.unrecorded ax e).headEnded a e .stopped 0).flushed a es).setAxis ax (a.finished e [] .stopped)) :
    (t.axis ax).state = .idle ∧ (t.axis ax).list = [] ∧ t.chain = x.chain ++ e.cell :: cellsOf es ∧
      t.waiting = x.waiting.filter (fun w => w.2 != ax) := by
  have hun : x.unrecorded ax e = { x with waiting := x.waiting.filter (fun w => w.2 != ax) } := if_pos hst
  subst ht
  rw [axis_setAxis_same, hun]
  refine ⟨rfl, rfl, ?_, ?_⟩
  · refine flushed_chain.trans ?_
    exact List.append_assoc x.chain [e.cell] (cellsOf es)
  · obtain ⟨m, k, h⟩ := endings_form (x := State.headEnded
      { x with waiting := x.waiting.filter (fun w => w.2 != ax) } a e .stopped 0) (es.map (flushEnding a))
    rw [← flushed_eq_endings] at h
    exact congrArg State.waiting h

/-- Whatever the axis, a silence action changes nothing but what ends, and flushes what stands behind a head. -/
theorem silence_general (hw : x.watches = []) (hm : x.memoryWf = true) (hax : x.axis ax = a) (hb : a.bindingOk)
    (hl : a.list = e :: es) (hn : (e.cell :: cellsOf es).Nodup) (ht : (x.setAxis ax a).silenceAxis ax = t) :
    x.OnlyEnds ax t ∧ (a.state = .waiting ∨ a.stoppable → ∀ n ∈ es, n.status = .admitted → n.cell < 480 →
      t.endReads n.cell 5 0 a.commanded a.feedback 0) := by
  have hself : x.setAxis ax a = x := by rw [← hax, setAxis_axis]
  rcases axis_cases a with h | h | h
  · rw [hself, silenceAxis_inert (by rw [hax]; exact h)] at ht
    subst ht
    refine ⟨⟨rfl, rfl, fun _ _ => rfl, ⟨rfl, rfl, id⟩⟩, fun hs => ?_⟩
    exfalso
    unfold Axis.atRest Axis.stoppable at *
    cases hst : a.state <;> simp_all
  · have hform := silence_waiting hw hl h ht
    refine ⟨?_, fun _ n hmem hs h4 => (waiting_reads hm hn hform).1 n hmem hs h4⟩
    rw [hform]
    exact onlyEnds_waiting (by rw [hax]; exact keeps_finished)
  · have hfates := fates_silenceAxis (ax := ax) hw hb hl h
    rw [ht] at hfates
    refine ⟨onlyEnds_fates (by rw [hax]; exact ⟨rfl, rfl, id⟩) hfates, fun _ n hmem hs h4 => ?_⟩
    exact fates_flushed hm (by rw [(unboundHead_fields e es).1]; exact hn) hfates hmem hs h4

/-! ### The silence action that a clause speaks of -/

theorem silencing_keep_carryOn (h : a.setup.silence = .carryOn) (hb : a.bindingOk) (hl : a.list = e :: es)
    (hs : a.state = .holding ∨ a.state = .held ∨ a.state = .running) (he : unboundHead e es = e) :
    a.silencing e es = .keep := by
  have hbound : ¬ (a.state = .running ∧ (es.head?.map (·.bound)).getD false = true) := fun ⟨_, hbound⟩ => by
    have hf := (bound_behind_move hb hl hbound).2
    rw [unboundHead_of_bound hbound] at he
    have := congrArg Entry.fly he
    rw [hf] at this
    cases this
  simp only [Axis.silencing, h, Bool.and_eq_true, decide_eq_true_eq]
  exact if_neg hbound

theorem silencing_stopping (h : a.setup.silence ≠ .abruptStop) (hs : a.state = .stopping) :
    a.silencing e es = .keep := by
  unfold Axis.silencing
  cases hsil : a.setup.silence <;> simp_all

theorem silencing_of_bound (h : a.setup.silence = .carryOn) (hs : a.state = .running)
    (hb : (es.head?.map (·.bound)).getD false = true) : a.silencing e es = .replan := by
  simp [Axis.silencing, h, hs, hb]

/-- A head that runs or holds is stopped by its kind. -/
theorem silencing_head (h : a.setup.silence ≠ .carryOn) (hs : a.state = .running ∨ a.state = .holding) :
    a.silencing e es = e.silencing (a.setup.silence = .abruptStop) := by
  unfold Axis.silencing
  cases hsil : a.setup.silence with
  | carryOn => exact absurd hsil h
  | rampStop => rcases hs with hs | hs <;> simp [hs]
  | abruptStop => rcases hs with hs | hs <;> simp [hs]

theorem silencing_held (h : a.setup.silence ≠ .carryOn) (hs : a.state = .held) :
    a.silencing e es = .finish .stopped := by
  unfold Axis.silencing
  cases hsil : a.setup.silence <;> simp_all

/-- Settles O51, clause by clause: each action on the head is what `Axis.silencing` names. -/
theorem silenceActions : Obligations.SilenceActions := by
  unfold Obligations.SilenceActions
  refine ⟨fun s r ax h h0 hone hr hc ho hl hst => ?_, ?_⟩
  · obtain ⟨f, k, hform⟩ := silentEntered_form s
    refine exec_supervisionExpiry h h0 hr hc ho ⟨rfl, rfl, fun _ _ => rfl, ⟨rfl, rfl, id⟩⟩ (silenceAxis_inert ?_)
    have hax : s.silentEntered.axis ax = s.axis ax := by rw [hform]; rfl
    rw [hax]
    exact hst.imp (fun h => by unfold Axis.atRest; rw [h]) id
  intro s r ax a e e' es ends h h0 hm hone hr hw hc ho ha hb hl hes h4 hphase hfly href he' hends
  obtain ⟨f, k, hform⟩ := silentEntered_form s
  have hxa : s.silentEntered.axis ax = a := by rw [hform, ha]; rfl
  have hxw : s.silentEntered.watches = [] := by rw [hform]; exact hw
  have hxm : s.silentEntered.memoryWf = true := by rw [hform]; exact hm
  have hxc : s.silentEntered.chain = s.chain := by rw [hform]
  have hself : s.silentEntered.setAxis ax a = s.silentEntered := by rw [← hxa, setAxis_axis]
  have hn : (e.cell :: cellsOf es).Nodup := by
    have := list_nodup hone ax
    rw [← ha, hl] at this
    exact this
  obtain ⟨t, ht⟩ : ∃ t, (s.silentEntered.setAxis ax a).silenceAxis ax = t := ⟨_, rfl⟩
  obtain ⟨honly, hflush⟩ := silence_general hxw hxm hxa hb hl hn ht
  refine ⟨t, exec_supervisionExpiry h h0 hr hc ho honly (by rw [hself] at ht; exact ht), ?_⟩
  obtain rfl : e' = unboundHead e es := he'
  have hfin (code : EndCode) (hact : e.status = .active)
      (hx : ((s.silentEntered.flushed a es).setAxis ax { a with list := [unboundHead e es] }).finishHead ax code = t) :
      ends code t ∧ (e.kind = .reference → code = .stopped → (t.axis ax).referenced = false ∧
        (t.axis ax).ref = a.ref.afterRun) := by
    obtain ⟨h1, h2⟩ := silence_finishes hxw hxm hl hb hact h4 hfly hx
    rw [hxc] at h1
    exact ⟨(hends code t).2 h1, h2⟩
  have hstopped (hs : a.stoppable) : (a.silencing e es = .finish .stopped → e.status = .active → ends .stopped t) :=
    fun hsil hact => (hfin .stopped hact (by rw [← ht, silenceAxis_flushes hl hs, hsil]; rfl)).1
  have hkeep (hs : a.stoppable) (hsil : a.silencing e es = .keep) (he : unboundHead e es = e) :
      t.axis ax = { a with list := [e] } ∧ t.chain = s.chain ++ cellsOf es := by
    have := silence_keeps hl hs hsil ht
    rwa [he, hxc] at this
  refine ⟨by rw [honly.rest, hform], by rw [honly.rest, hform], by rw [honly.rest]; rfl, honly.state,
    fun j hj => (honly.others j hj).trans (by rw [hform]; rfl), by rw [← hxa]; exact honly.keeps.commanded,
    by rw [← hxa]; exact honly.keeps.feedback, by rw [honly.rest, hform], fun h1 h2 h3 h4' n hmem => ?_,
    fun hwait hst => ?_, fun hact => ?_⟩
  · refine hflush ?_ n hmem (hes n hmem).1 (hes n hmem).2
    rcases axis_cases a with (h | h) | h
    · unfold Axis.atRest at h
      cases hst : a.state <;> simp [hst] at h h1 h3 h4'
    · exact absurd h h2
    · exact h
  · have hw' := silence_waiting hxw hl hwait ht
    obtain ⟨g1, g2, g3, g4⟩ := silence_waiting_facts hst hw'
    have hread := (waiting_reads hxm hn hw').2 hst h4
    refine ⟨g1, g2, by rw [g3, hxc]; rfl, ?_, by rw [g4, hform]⟩
    have h3 : bytes4 EndCode.stopped.code 0 0 0 = 3 := by decide
    rw [h3] at hread
    exact hread
  · refine ⟨fun hcar => ⟨fun hs he => ?_, fun hs hne hk hd hrem => ?_⟩, fun hna hs hc he => ?_, fun hnc he hmv hs => ?_,
      fun hramp hs hk hsm hcan hdir hrem => ?_, fun hab hs hk => ?_, fun hab hs hc hk he => ?_, fun hnc hs hk =>
      ⟨fun hor => ?_, fun hramp hmv hp hcan ho => ?_⟩⟩
    · refine hkeep ?_ (silencing_keep_carryOn hcar hb hl hs he) he
      exact hs.elim (fun h => Or.inr (Or.inl h)) fun h => h.elim (fun h => Or.inr (Or.inr (Or.inl h))) Or.inl
    · have hbound : (es.head?.map (·.bound)).getD false = true := by
        by_contra hnb
        exact hne (if_neg hnb)
      have := silence_replans hl hb (Or.inl hs) (silencing_of_bound hcar hs hbound) hrem ht
      rwa [hxc] at this
    · exact hkeep (Or.inr (Or.inr (Or.inr ⟨hs, hc⟩))) (silencing_stopping hna hs) he
    · rcases hs with hs | ⟨hs, hk⟩
      · exact hstopped (Or.inr (Or.inr (Or.inl hs))) (silencing_held hnc hs) hact
      · refine hstopped (Or.inl hs) ?_ hact
        rw [silencing_head hnc (Or.inl hs), Entry.silencing, hk]
    · have hsil : a.silencing e es = .ramp := by
        rw [silencing_head (by rw [hramp]; decide) hs, hramp]
        unfold Entry.silencing
        rcases kind_of_moves hk with h | h | h <;> rw [h] <;> rfl
      have := silence_ramps hl (hs.elim Or.inl fun h => Or.inr (Or.inl h)) hsil hk hsm hcan hrem ht
      rwa [hxc] at this
    · refine hstopped (hs.elim Or.inl fun h => Or.inr (Or.inl h)) ?_ hact
      rw [silencing_head (by rw [hab]; decide) hs, hab]
      unfold Entry.silencing
      rcases kind_of_moves hk with h | h | h <;> rw [h] <;> rfl
    · refine (hfin a.rampEnd hact ?_).1
      rw [← ht, silenceAxis_flushes hl (Or.inr (Or.inr (Or.inr ⟨hs, hc⟩)))]
      simp [Axis.silencing, hab, hs, State.silenceHead]
    · have hsil := (silencing_head (e := e) (es := es) hnc (Or.inl hs)).trans
        (show e.silencing (a.setup.silence = .abruptStop) = .reference (a.setup.silence = .abruptStop) by
          rw [Entry.silencing, hk])
      have hx : ((s.silentEntered.flushed a es).setAxis ax { a with list := [unboundHead e es] }).finishHead ax .stopped = t := by
        rw [← ht, silenceAxis_flushes hl (Or.inl hs), hsil]
        exact (stopReference_atOnce (a := { a with list := [unboundHead e es] }) (hor.imp decide_eq_true id)).symm
      obtain ⟨g1, g2⟩ := hfin .stopped hact hx
      obtain ⟨g3, g4⟩ := g2 hk rfl
      exact ⟨g1, g3, by rw [g4]; rfl, by rw [g4]; rfl⟩
    · have hsil : a.silencing e es = .reference false := by
        rw [silencing_head hnc (Or.inl hs), hramp, Entry.silencing, hk]
        rfl
      have := silence_reference_ramps hl (Or.inl hs) hsil hk hmv hp hcan ho ht
      rwa [hxc, href hk] at this

end Sys2Proof.Machine
end

section
/-!
The first fault of an axis with one ACTIVE order (R69, R163): the order ends FAULTED, and the axis is FAULTED at once or
makes the fault ramp.
-/

open Sys2Proof Sys2Proof.Machine

namespace Sys2Proof.Machine

variable {s t x y : State} {ax : AxisIx} {a b : Axis} {e : Entry} {code detail : Nat} {reaction : Reaction} {d : Cond}
  {rates : Rates} {c : Conds}

/-! ### What the fault makes of the axis -/

/-- The fault ramp begun (R69, R87). -/
def Axis.faultRamping (a : Axis) (rates : Rates) : Axis :=
  ({ a with state := .stopping, stopCause := .fault, pendingFault := true } : Axis).stopBegun rates none

/-- The fault ramp of an axis is called for (R69, R147). -/
def Axis.mayRamp (a : Axis) (reaction : Reaction) : Bool := a.moving && reaction = .ramp && !a.ref.phase.creeps

/-- The fault ramp of an axis whose order has ended. -/
def Axis.faultRamp (a : Axis) (e : Entry) : Axis :=
  (a.headEnded e [] .faulted).faultRamping (stopRates a.setup (some e))

/-- The fault ramp is called for and makes a pulse. -/
def Axis.rampsOn (a : Axis) (e : Entry) (reaction : Reaction) : Bool :=
  a.mayRamp reaction && !(a.faultRamp e).planDone

/-- An axis whose only order a fault has ended. -/
def Axis.struck (a : Axis) (e : Entry) (reaction : Reaction) : Axis :=
  if a.rampsOn e reaction then a.faultRamp e
  else if a.mayRamp reaction then (a.faultRamp e).toFaulted
  else (a.headEnded e [] .faulted).toFaulted

theorem faultRamp_eq (hw : x.watches = []) (hl : a.list = []) : (x.setAxis ax a).faultRamp ax rates =
    if (a.faultRamping rates).planDone = true then x.setAxis ax (a.faultRamping rates).toFaulted
    else (x.setAxis ax (a.faultRamping rates)).addChecks ax := by
  have hu : (x.setAxis ax a).updAxis ax (fun a => { a with state := .stopping, stopCause := .fault, pendingFault := true })
      = x.setAxis ax { a with state := .stopping, stopCause := .fault, pendingFault := true } := updAxis_setAxis _
  unfold State.faultRamp
  dsimp only
  rw [hu, beginStop_setAxis, axis_setAxis_same]
  change (if (a.faultRamping rates).planDone = true then State.becomeFaulted (x.setAxis ax (a.faultRamping rates)) ax
    else State.addChecks _ ax) = _
  rw [becomeFaulted_setAxis (a := a.faultRamping rates) hw hl]
  rfl

/-- The first fault of a running axis with one ACTIVE order, recorded and carried out (R69, R160, R163). -/
theorem axisFault_alone (hw : x.watches = []) (hf : x.faultEntry (.axis ax) = none) (hl : a.list = [e])
    (hs : e.status = .active) (hr : a.state = .running) : (x.setAxis ax a).axisFault ax code detail reaction =
      if a.rampsOn e reaction = true
      then (((x.faulted (.axis ax) code detail e.cell).headEnded a e .faulted code).setAxis ax
        (a.struck e reaction)).addChecks ax
      else ((x.faulted (.axis ax) code detail e.cell).headEnded a e .faulted code).setAxis ax (a.struck e reaction) := by
  have hcell : a.reportCell = e.cell := by
    unfold Axis.reportCell
    rw [hl]
    simp [hs]
  have hrec : (x.setAxis ax a).recordFault (.axis ax) code detail e.cell
      = (x.faulted (.axis ax) code detail e.cell).setAxis ax a := recordFault_first hf
  have hlist : ((x.faulted (.axis ax) code detail e.cell).setAxis ax a).faultList ax code =
      ((x.faulted (.axis ax) code detail e.cell).headEnded a e .faulted code).setAxis ax (a.headEnded e [] .faulted) := by
    unfold State.faultList
    dsimp only
    rw [axis_setAxis_same, hl, dropBinding_setAxis_single hl]
    simp only [List.head?_cons, hs, reduceCtorEq, if_false]
    rw [endHead_setAxis hl hs, flushAll_setAxis_nil rfl]
  unfold State.axisFault State.react
  rw [axis_setAxis_same, hcell, hrec, axis_setAxis_same, hr]
  unfold State.firstFault
  dsimp only
  rw [axis_setAxis_same, hlist, hl, faultRamp_eq (x := (x.faulted (.axis ax) code detail e.cell).headEnded a e .faulted code)
      (a := a.headEnded e [] .faulted) hw rfl,
    becomeFaulted_setAxis (x := (x.faulted (.axis ax) code detail e.cell).headEnded a e .faulted code)
      (a := a.headEnded e [] .faulted) hw rfl]
  unfold Axis.struck Axis.rampsOn
  change (if a.mayRamp reaction = true then if (a.faultRamp e).planDone = true then _ else _ else _) = _
  cases a.mayRamp reaction <;> cases (a.faultRamp e).planDone <;> rfl

/-! ### What the fault leaves of the axis -/

theorem stood_dir : a.stood.prof.dir = a.prof.dir := by
  unfold Axis.stood
  split <;> rfl

theorem stood_seen : a.stood.seen.alarm = a.seen.alarm ∧ a.stood.seen.follow = a.seen.follow := by
  unfold Axis.stood
  split <;> exact ⟨rfl, rfl⟩

/-- An axis that is FAULTED as it stands. -/
structure Axis.faultStood (b a : Axis) : Prop where
  moving : b.moving = false
  state : b.state = .faulted
  pending : b.pendingFault = false
  alarm : b.seen.alarm = a.seen.alarm
  follow : b.seen.follow = a.seen.follow

theorem toFaulted_stood (h : b.seen = a.seen) : b.toFaulted.faultStood a :=
  ⟨stood_moving, rfl, rfl, (stood_seen (a := b)).1.trans (congrArg Conds.alarm h),
    (stood_seen (a := b)).2.trans (congrArg Conds.follow h)⟩

/-- The fault ends in FAULTED at once, or in the fault ramp. -/
theorem struck_cases (a : Axis) (e : Entry) (reaction : Reaction) :
    (a.rampsOn e reaction = true ∧ a.struck e reaction = a.faultRamp e) ∨
      (a.rampsOn e reaction = false ∧ (a.struck e reaction).faultStood a) := by
  unfold Axis.struck
  cases a.rampsOn e reaction
  · right
    refine ⟨rfl, ?_⟩
    simp only [Bool.false_eq_true, if_false]
    split
    · exact toFaulted_stood rfl
    · exact toFaulted_stood rfl
  · exact Or.inl ⟨rfl, rfl⟩

/-- What is the same of an axis whose only order a fault has ended. -/
structure Axis.struckFrom (b a : Axis) (e : Entry) : Prop where
  list : b.list = []
  cause : b.stopCause = .fault
  commanded : b.commanded = a.commanded
  feedback : b.feedback = a.feedback
  followErr : b.followErr = a.followErr
  inputs : b.inputs = a.inputs
  setup : b.setup = a.setup
  dir : b.prof.dir = a.prof.dir
  ref : b.ref = if e.kind = .reference then a.ref.afterRun else a.ref
  referenced : b.referenced = if e.kind = .reference then false else a.referenced

theorem toFaulted_from (h : b.struckFrom a e) : b.toFaulted.struckFrom a e := by
  unfold Axis.toFaulted
  obtain ⟨h1, h2, h3, h4, h5, h6, h7, h8, h9, h10⟩ := h
  have hd := stood_dir (a := b)
  rw [stood_eq] at hd ⊢
  exact ⟨h1, rfl, h3, h4, h5, h6, h7, hd.trans h8, h9, h10⟩

theorem faultRamp_from : (a.faultRamp e).struckFrom a e := by
  refine ⟨rfl, rfl, rfl, rfl, rfl, rfl, rfl, rfl, rfl, ?_⟩
  change (if e.kind = .reference ∧ (EndCode.faulted = .stopped ∨ EndCode.faulted = .faulted) then false
    else a.referenced) = _
  simp

theorem struck_from (a : Axis) (e : Entry) (reaction : Reaction) : (a.struck e reaction).struckFrom a e := by
  unfold Axis.struck
  split
  · exact faultRamp_from
  · split
    · exact toFaulted_from faultRamp_from
    · have h := faultRamp_from (a := a) (e := e)
      have hd := stood_dir (a := a.headEnded e [] .faulted)
      have hr := h.referenced
      unfold Axis.toFaulted
      rw [stood_eq] at hd ⊢
      exact ⟨rfl, rfl, rfl, rfl, rfl, rfl, rfl, hd, rfl, hr⟩

/-- The reaction, where the ramp is LINEAR and no phase at creep speed forbids it (R69, R163). -/
theorem struck_reacts (hm : a.moving = true) (hr : (stopRates a.setup (some e)).form = .linear) (hfl : (stopRates a.setup (some e)).floor = a.setup.floor)
    (hc : a.ref.phase.creeps = false) : (a.struck e reaction).reacts a reaction := by
  have hf := struck_from a e reaction
  refine ⟨hf.list, hf.cause, fun h => ?_, fun h hcan => ?_⟩
  · rcases struck_cases a e reaction with ⟨h', -⟩ | ⟨-, h'⟩
    · unfold Axis.rampsOn Axis.mayRamp at h'
      subst h
      simp at h'
    · exact ⟨h'.state, h'.moving, h'.pending, by rw [Axis.driveEnable, h'.state]⟩
  · have hsl : a.Slows (stopRates a.setup (some e)) := ⟨hr, hfl, hcan.1, hcan.2.1⟩
    have hdone : (a.faultRamp e).planDone = false := by
      refine stopBegun_not_done (a := { a.headEnded e [] .faulted with
        state := .stopping, stopCause := .fault, pendingFault := true }) ?_ ?_
      · exact stopPlan_length_pos (a := a) hsl.form (hsl.floor ▸ hsl.fast) hsl.dec (bound := none) hcan.2.2
      · exact (stopPlan_facts (a := a) hsl.form (hsl.floor ▸ hsl.fast) none).1
    have hon : a.rampsOn e reaction = true := by
      unfold Axis.rampsOn Axis.mayRamp
      rw [hdone, hm, hc, h]
      rfl
    rw [show a.struck e reaction = a.faultRamp e from if_pos hon]
    exact ⟨rfl, rfl, rfl, stopBegun_ramps (a := a) hr hfl hcan.1 none⟩

/-- At once FAULTED, where the reaction is abrupt, at creep speed and at standstill (R147, R163). -/
theorem struck_atOnce (h : reaction = .abrupt ∨ a.moving = false ∨ a.ref.phase.creeps = true) :
    a.rampsOn e reaction = false ∧ (a.struck e reaction).state = .faulted ∧ (a.struck e reaction).moving = false ∧
      (a.struck e reaction).driveEnable = false := by
  have hno : a.rampsOn e reaction = false := by
    unfold Axis.rampsOn Axis.mayRamp
    rcases h with h | h | h <;> simp [h]
  rcases struck_cases a e reaction with ⟨h', -⟩ | ⟨-, h'⟩
  · rw [hno] at h'
    cases h'
  · exact ⟨hno, h'.state, h'.moving, by rw [Axis.driveEnable, h'.state]⟩

end Sys2Proof.Machine
end

section
/-!
Checks of an axis taken in any order (R97, R122): those that find nothing new, the one that reports a fault, and those
that the fault ramp begins.
-/

open Sys2Proof Sys2Proof.Machine

namespace Sys2Proof.Machine

variable {s t x y z : State} {ax : AxisIx} {a b : Axis} {e : Entry} {code detail : Nat} {reaction : Reaction} {d : Cond}
  {c : Conds} {new : Option Cond} {r : Race} {k : Job} {l : List Job}

/-! ### What the checks of an axis find (R97) -/

theorem has_put (c : Conds) (d d' : Cond) (v : Bool) : (c.put d v).has d' = if d' = d then v else c.has d' := by
  cases d <;> cases d' <;> rfl

/-- Whether a condition holds depends neither on what waits nor on what has been found. -/
theorem condHolds_seen : (({ y with agenda := l } : State).setAxis ax { b with seen := c }).condHolds ax d =
    (y.setAxis ax b).condHolds ax d := by
  cases d <;> simp only [State.condHolds, axis_setAxis_same] <;> rfl

/-- A state with one axis replaced, up to the agenda and to what its checks have found; of the conditions that hold,
only `new` has not been found. -/
def State.finds (y : State) (ax : AxisIx) (b : Axis) (new : Option Cond) (x : State) : Prop :=
  ∃ c, x = ({ y with agenda := x.agenda } : State).setAxis ax { b with seen := c } ∧
    ∀ d, (y.setAxis ax b).condHolds ax d = true → c.has d = decide (new ≠ some d)

theorem finds_agenda (h : y.finds ax b new x) (l : List Job) : y.finds ax b new { x with agenda := l } := by
  obtain ⟨c, hx, hc⟩ := h
  refine ⟨c, ?_, hc⟩
  rw [hx]
  rfl

/-- What a check makes of the record of its axis. -/
theorem checkCond_setAxis : (x.setAxis ax a).checkCond ax d =
    if ((x.setAxis ax a).condHolds ax d && !a.seen.has d) = true
    then (x.setAxis ax { a with seen := a.seen.put d ((x.setAxis ax a).condHolds ax d) }).reportCond ax d
    else x.setAxis ax { a with seen := a.seen.put d ((x.setAxis ax a).condHolds ax d) } := by
  unfold State.checkCond
  dsimp only
  rw [updAxis_setAxis, axis_setAxis_same]

/-- A check of a condition that is not new reports nothing. -/
theorem finds_check (h : y.finds ax b new x) (hd : new ≠ some d) :
    y.finds ax b new (x.runJob (.check ax d)) ∧ (x.runJob (.check ax d)).agenda = x.agenda := by
  obtain ⟨c, hx, hc⟩ := h
  have hrun : x.runJob (.check ax d) = ({ y with agenda := x.agenda } : State).setAxis ax
      { b with seen := c.put d ((y.setAxis ax b).condHolds ax d) } := by
    change x.checkCond ax d = _
    conv_lhs => rw [hx]
    rw [checkCond_setAxis, condHolds_seen]
    refine if_neg ?_
    rw [Bool.and_eq_true, Bool.not_eq_true']
    rintro ⟨h1, h2⟩
    have h3 := hc d h1
    rw [h2] at h3
    simp [hd] at h3
  rw [hrun]
  refine ⟨⟨_, rfl, fun d' hd' => ?_⟩, rfl⟩
  rw [has_put]
  split
  · rename_i heq
    rw [heq] at hd'
    rw [hd', heq]
    simpa using hd
  · exact hc d' hd'

theorem idles_finds : Idles (y.finds ax b new) (fun k => ∃ d, k = .check ax d ∧ new ≠ some d) :=
  ⟨fun _ l h => finds_agenda h l, fun _ _ h ⟨_, hk, hd⟩ => hk ▸ finds_check h hd⟩

/-- A check of a condition that has been found to hold anew: it is recorded and reported. -/
theorem finds_reports (h : y.finds ax b (some d) x) (hd : (y.setAxis ax b).condHolds ax d = true) : ∃ c,
    x.runJob (.check ax d) = (({ y with agenda := x.agenda } : State).setAxis ax { b with seen := c }).reportCond ax d ∧
      ∀ d', (y.setAxis ax b).condHolds ax d' = true → c.has d' = true := by
  obtain ⟨c, hx, hc⟩ := h
  refine ⟨c.put d true, ?_, fun d' hd' => ?_⟩
  · change x.checkCond ax d = _
    conv_lhs => rw [hx]
    rw [checkCond_setAxis, condHolds_seen, hd]
    have h3 := hc d hd
    simp only [ne_eq, not_true_eq_false, decide_false] at h3
    exact if_pos (by rw [h3]; rfl)
  · rw [has_put]
    split
    · rfl
    · rename_i hne
      rw [hc d' hd']
      simpa using fun h => hne h.symm

/-! ### The fault that a condition is reported as (R97, R98, R102, R104, R105, R138) -/

/-- The code, the detail and the reaction of a condition's fault. -/
def Axis.condFault (b : Axis) : Cond → Nat × Nat × Reaction
  | .limit => if b.ref.phase = .seekBack then (208, 34, b.setup.limitReaction)
      else (201, b.prof.dir.limitDetail, b.setup.limitReaction)
  | .ready => (206, 0, .abrupt)
  | .alarm => (205, 0, .abrupt)
  | .follow => (204, 0, b.setup.followReaction)

/-- A condition that has been recorded as found is reported as that fault. -/
theorem reportCond_eq (hl : d = .limit → b.moving = true ∧ b.seen.limit = true) :
    (x.setAxis ax b).reportCond ax d =
      (x.setAxis ax b).axisFault ax (b.condFault d).1 (b.condFault d).2.1 (b.condFault d).2.2 := by
  unfold Axis.condFault State.reportCond
  cases d with
  | limit =>
      obtain ⟨hm, hseen⟩ := hl rfl
      have hself : ({ b with seen := { b.seen with limit := true } } : Axis) = b := by
        have : ({ b.seen with limit := true } : Conds) = b.seen := by rw [← hseen]
        rw [this]
      dsimp only
      rw [axis_setAxis_same]
      split
      · unfold State.seekBackFail
        rw [updAxis_setAxis]
        dsimp only
        rw [hm, hself]
        unfold State.refFail
        rw [axis_setAxis_same]
        rfl
      · unfold State.limitFault
        rw [axis_setAxis_same, if_pos hm, updAxis_setAxis]
        dsimp only
        rw [hself, axis_setAxis_same]
        rfl
  | ready => rfl
  | alarm => rfl
  | follow =>
      dsimp only
      rw [axis_setAxis_same]
      rfl

/-! ### After the fault nothing new is found (R97) -/

theorem struck_withSeen (b : Axis) (c : Conds) (e : Entry) (reaction : Reaction) :
    ∃ c', ({ b with seen := c } : Axis).struck e reaction = { b.struck e reaction with seen := c' } := by
  have hr : ({ b with seen := c } : Axis).rampsOn e reaction = b.rampsOn e reaction := rfl
  have hm : ({ b with seen := c } : Axis).mayRamp reaction = b.mayRamp reaction := rfl
  have hto (a : Axis) : ∃ c', ({ a with seen := c } : Axis).toFaulted = { a.toFaulted with seen := c' } := by
    obtain ⟨c', hc⟩ := stood_withSeen (a := a) (c := c)
    refine ⟨c', ?_⟩
    unfold Axis.toFaulted
    rw [hc]
  unfold Axis.struck
  rw [hr, hm]
  split
  · exact ⟨c, rfl⟩
  · split
    · exact hto (b.faultRamp e)
    · exact hto (b.headEnded e [] .faulted)

theorem limitActive_congr (hi : b.inputs = a.inputs) (hs : b.setup = a.setup) (w : Dir) :
    b.limitActive w = a.limitActive w := by
  unfold Axis.limitActive Axis.limitPlusActive Axis.limitMinusActive
  rw [hi, hs]

/-- What holds of the axis after the fault held before it, and by then had been found. -/
theorem condHolds_struck (hm : y.modState = x.modState) (hr : b.state = .running)
    (hx : b.rampsOn e reaction = true → b.limitExempt = false)
    (hd : (y.setAxis ax (b.struck e reaction)).condHolds ax d = true) :
    (x.setAxis ax b).condHolds ax d = true ∧
      (b.seen.has d = true → (b.struck e reaction).seen.has d = true) := by
  have hf := struck_from b e reaction
  rcases struck_cases b e reaction with ⟨hon, hst⟩ | ⟨-, hst⟩
  · have hmv : b.moving = true := by
      unfold Axis.rampsOn Axis.mayRamp at hon
      simp only [Bool.and_eq_true] at hon
      exact hon.1.1.1
    have hseen : (b.struck e reaction).seen = b.seen := by rw [hst]; rfl
    refine ⟨?_, fun h => by rw [hseen]; exact h⟩
    cases d with
    | limit =>
        simp only [State.condHolds, axis_setAxis_same, Bool.and_eq_true, hf.dir] at hd ⊢
        refine ⟨⟨hmv, ?_⟩, by rw [hx hon]; rfl⟩
        rw [← limitActive_congr hf.inputs hf.setup]
        exact hd.1.2
    | ready =>
        simp only [State.condHolds, axis_setAxis_same, Bool.and_eq_true, Axis.readyActive, hf.inputs, hf.setup] at hd ⊢
        exact ⟨hmv, hd.2⟩
    | alarm =>
        simp only [State.condHolds, axis_setAxis_same, Bool.and_eq_true, Axis.alarmActive, hf.inputs, hf.setup, hr] at hd ⊢
        exact ⟨rfl, hd.2⟩
    | follow =>
        simp only [State.condHolds, axis_setAxis_same, Bool.and_eq_true, Axis.followMagnitude, hf.followErr, hf.setup, hr] at hd ⊢
        exact ⟨⟨⟨hm ▸ hd.1.1.1, rfl⟩, hd.1.2⟩, hd.2⟩
  · cases d with
    | limit => simp [State.condHolds, axis_setAxis_same, hst.moving] at hd
    | ready => simp [State.condHolds, axis_setAxis_same, hst.moving] at hd
    | alarm =>
        refine ⟨?_, fun h => hst.alarm.trans h⟩
        simp only [State.condHolds, axis_setAxis_same, Bool.and_eq_true, Axis.alarmActive, hf.inputs, hf.setup, hr] at hd ⊢
        exact ⟨rfl, hd.2⟩
    | follow =>
        refine ⟨?_, fun h => hst.follow.trans h⟩
        simp only [State.condHolds, axis_setAxis_same, Bool.and_eq_true, Axis.followMagnitude, hf.followErr, hf.setup, hr] at hd ⊢
        exact ⟨⟨⟨hm ▸ hd.1.1.1, rfl⟩, hd.1.2⟩, hd.2⟩

end Sys2Proof.Machine
end

section
/-!
A fault among the checks of an axis (O37; R69, R97, R122, R163): in whatever order they are taken, what follows the
event is the fault, once.
-/

open Sys2Proof Sys2Proof.Machine

namespace Sys2Proof.Machine

variable {s t x y z : State} {ax : AxisIx} {a b : Axis} {e : Entry} {code detail : Nat} {reaction : Reaction} {d : Cond}
  {c : Conds} {new : Option Cond} {r : Race} {k : Job} {l : List Job}

/-! ### The module after the fault -/

/-- The fault recorded, the order of the axis ended FAULTED (R69, R160). -/
def State.afterFault (s : State) (ax : AxisIx) (b : Axis) (e : Entry) (code detail : Nat) : State :=
  (s.faulted (.axis ax) code detail e.cell).headEnded b e .faulted code

theorem afterFault_agenda (l : List Job) : ({ y with agenda := l } : State).afterFault ax { b with seen := c } e code detail =
    { y.afterFault ax b e code detail with agenda := l } := by
  unfold State.afterFault State.headEnded State.ended
  rw [State.endMem, State.endMem, endCell_mem_congr (s := y.faulted (.axis ax) code detail e.cell)
    (t := ({ y with agenda := l } : State).faulted (.axis ax) code detail e.cell) (b' := false) rfl rfl]
  rfl

/-- The fault of an axis whose conditions have all been found: after it, its checks find nothing new. -/
theorem axisFault_finds (hw : y.watches = []) (hf : y.faultEntry (.axis ax) = none) (hl : b.list = [e])
    (hs : e.status = .active) (hr : b.state = .running) (hx : b.rampsOn e reaction = true → b.limitExempt = false)
    (hc : ∀ d, (y.setAxis ax b).condHolds ax d = true → c.has d = true)
    (hz : z = (({ y with agenda := l } : State).setAxis ax { b with seen := c }).axisFault ax code detail reaction) :
    (y.afterFault ax b e code detail).finds ax (b.struck e reaction) none z ∧
      ∃ l', (∀ j ∈ l', ∃ d, j = .check ax d) ∧ l'.length ≤ 4 ∧ z.agenda = l ++ l' := by
  obtain ⟨c', hc'⟩ := struck_withSeen b c e reaction
  have hnew (d : Cond) (hd : ((y.afterFault ax b e code detail).setAxis ax (b.struck e reaction)).condHolds ax d = true) :
      c'.has d = decide ((none : Option Cond) ≠ some d) := by
    have hd' : ((y.afterFault ax b e code detail).setAxis ax (({ b with seen := c } : Axis).struck e reaction)).condHolds
        ax d = true := by
      rw [hc', ← hd]
      exact condHolds_seen (y := y.afterFault ax b e code detail) (l := (y.afterFault ax b e code detail).agenda)
    obtain ⟨h1, h2⟩ := condHolds_struck (x := y) (ax := ax) (b := { b with seen := c }) rfl hr hx hd'
    rw [hc'] at h2
    have h3 : (y.setAxis ax b).condHolds ax d = true := by
      rw [← h1]
      exact (condHolds_seen (y := y) (l := y.agenda)).symm
    exact h2 (hc d h3)
  have hfault := axisFault_alone (x := { y with agenda := l }) (ax := ax) (a := { b with seen := c }) (code := code)
    (detail := detail) (reaction := reaction) hw hf hl hs hr
  rw [← hz, hc'] at hfault
  change z = (if b.rampsOn e reaction = true
    then State.addChecks ((({ y with agenda := l } : State).afterFault ax { b with seen := c } e code detail).setAxis ax
      { b.struck e reaction with seen := c' }) ax
    else (({ y with agenda := l } : State).afterFault ax { b with seen := c } e code detail).setAxis ax
      { b.struck e reaction with seen := c' }) at hfault
  rw [afterFault_agenda] at hfault
  split at hfault
  · refine ⟨⟨c', by rw [hfault]; rfl, hnew⟩,
      [.check ax .limit, .check ax .ready, .check ax .alarm, .check ax .follow], fun j hj => ?_, Nat.le_refl 4, by rw [hfault]; rfl⟩
    simp only [List.mem_cons, List.not_mem_nil, or_false] at hj
    rcases hj with hj | hj | hj | hj <;> exact ⟨_, hj⟩
  · exact ⟨⟨c', by rw [hfault]; rfl, hnew⟩, [], fun j hj => absurd hj List.not_mem_nil, Nat.zero_le 4,
      by rw [hfault]; exact (List.append_nil l).symm⟩

/-- A check that finds a condition anew makes its fault. -/
theorem finds_faults {code detail : Nat} {reaction : Reaction} (hw : y.watches = []) (hf : y.faultEntry (.axis ax) = none)
    (hl : b.list = [e]) (hs : e.status = .active) (hr : b.state = .running)
    (hx : b.rampsOn e reaction = true → b.limitExempt = false) (hd : (y.setAxis ax b).condHolds ax d = true)
    (hcf : b.condFault d = (code, detail, reaction)) (h : y.finds ax b (some d) x) :
    (y.afterFault ax b e code detail).finds ax (b.struck e reaction) none (x.runJob (.check ax d)) ∧
      ∃ l', (∀ j ∈ l', ∃ d, j = .check ax d) ∧ l'.length ≤ 4 ∧ (x.runJob (.check ax d)).agenda = x.agenda ++ l' := by
  obtain ⟨c, hrun, hc⟩ := finds_reports h hd
  have hcf' : ({ b with seen := c } : Axis).condFault d = (code, detail, reaction) := by
    rw [← hcf]
    cases d <;> rfl
  rw [reportCond_eq (fun hlim => ⟨?_, ?_⟩), hcf'] at hrun
  · exact axisFault_finds hw hf hl hs hr hx hc hrun
  · subst hlim
    simp only [State.condHolds, axis_setAxis_same, Bool.and_eq_true] at hd
    exact hd.1.1
  · subst hlim
    exact hc .limit hd

/-! ### The agenda taken -/

/-- One report takes `before` to `after`, perhaps with more that are idle; the others keep both. -/
theorem drain_more {before after : State → Prop} {idle idle' : Job → Prop} {m : Nat} (hb : Idles before idle)
    (ha : Idles after idle') (hi : ∀ j, idle j → idle' j)
    (hk : ∀ x, before x → after (x.runJob k) ∧
      ∃ l', (∀ j ∈ l', idle' j) ∧ l'.length ≤ m ∧ (x.runJob k).agenda = x.agenda ++ l') :
    ∀ (n : Nat) (picks : List Nat) (x : State) (l : List Job), before x → x.agenda.Perm (k :: l) → (∀ j ∈ l, idle j) →
      l.length + m < n → after (x.drain n picks) ∧ (x.drain n picks).agenda = []
  | 0, _, _, _, _, _, _, hn => absurd hn (Nat.not_lt_zero _)
  | n + 1, picks, x, l, hx, hp, hl, hn => by
      have he : x.agenda ≠ [] := fun h => by simp [h] at hp
      have hlt := pickJob_lt (picks.headD 0) he
      obtain ⟨j, hj⟩ : ∃ j, x.agenda[pickJob (picks.headD 0) x.agenda]? = some j := ⟨_, List.getElem?_eq_getElem hlt⟩
      have hrest : (j :: x.agenda.eraseIdx (pickJob (picks.headD 0) x.agenda)).Perm (k :: l) := by
        have := List.getElem_cons_eraseIdx_perm hlt
        rw [List.getElem?_eq_getElem hlt, Option.some.injEq] at hj
        rw [hj] at this
        exact this.trans hp
      have hx' := hb.agenda x (x.agenda.eraseIdx (pickJob (picks.headD 0) x.agenda)) hx
      unfold State.drain
      simp only [hj]
      by_cases hjk : j = k
      · rw [hjk] at hrest ⊢
        obtain ⟨h1, l', hl', hlen, h2⟩ := hk _ hx'
        have hperm := hrest.cons_inv
        refine drain_all after idle' ha.agenda ha.keeps n picks.tail _ h1 (fun i hmem => ?_) ?_
        · rw [h2, List.mem_append] at hmem
          exact hmem.elim (fun h => hi i (hl i (hperm.subset h))) (hl' i)
        · rw [h2, List.length_append]
          change (x.agenda.eraseIdx _).length + l'.length ≤ n
          rw [hperm.length_eq]
          omega
      · have hjl : j ∈ l := by
          have := hrest.subset List.mem_cons_self
          simpa [hjk] using this
        obtain ⟨h1, h2⟩ := hb.keeps _ j hx' (hl j hjl)
        refine drain_more hb ha hi hk n picks.tail _ (l.erase j) h1 ?_ (fun i hmem => hl i (List.mem_of_mem_erase hmem)) ?_
        · rw [h2]
          exact (hrest.trans (((List.perm_cons_erase hjl).cons k).trans (.swap j k _))).cons_inv
        · rw [List.length_erase_of_mem hjl]
          have := List.length_pos_of_mem hjl
          omega

/-- An event that ends outside STOPPING with at most one cell linked, closed by what its agenda makes. -/
theorem close_drained {after : State → Prop} (hn : x.noAssigns)
    (hd : after (x.drain Config.agendaBound r.picks) ∧ (x.drain Config.agendaBound r.picks).agenda = [])
    (hend : ∀ z, after z → z.modState ≠ .stopping ∧ z.chain.length ≤ s.chain.length + 1) :
    after (s.close r x) ∧ (s.close r x).agenda = [] := by
  obtain ⟨hm, hc⟩ := hend _ hd.1
  have hf : x.finish r = x.drain Config.agendaBound r.picks := by
    rw [finish_eq, followUp_of_noAssigns hn]
    unfold State.stopIfAtRest
    rw [if_neg (by simp [hm])]
  rw [close_of_short (by rw [hf]; exact hc), hf]
  exact hd

/-! ### The event closed -/

theorem finds_modState (h : y.finds ax b new x) : x.modState = y.modState ∧ x.chain = y.chain := by
  obtain ⟨c, hx, -⟩ := h
  rw [hx]
  exact ⟨rfl, rfl⟩

theorem afterFault_fields : (s.afterFault ax b e code detail).modState = s.modState ∧
    (s.afterFault ax b e code detail).chain = s.chain ++ [e.cell] := ⟨rfl, rfl⟩

theorem noAssigns_setAxis (hq : ∀ j, (s.axis j).ref.assignDue = false) (hdue : b.ref.assignDue = false) {l : List Job}
    (hl : ∀ j ∈ l, ∃ ax d, j = Job.check ax d) : (({ s with agenda := l } : State).setAxis ax b).noAssigns := by
  refine ⟨fun j hj => ?_, fun j => ?_⟩
  · obtain ⟨_, _, h⟩ := hl _ hj
    cases h
  · by_cases hja : j = ax
    · subst hja
      rw [axis_setAxis_same]
      exact hdue
    · rw [axis_setAxis_other _ _ hja]
      exact hq j

/-- What follows an event, outside STOPPING, of whose checks one finds a condition anew. -/
theorem close_faults (hq : s.quiet = true) (hw : s.watches = []) (hf : s.faultEntry (.axis ax) = none)
    (hl : b.list = [e]) (hs : e.status = .active) (hr : b.state = .running) (hdue : b.ref.assignDue = false)
    (hx : b.rampsOn e reaction = true → b.limitExempt = false) (hd : (s.setAxis ax b).condHolds ax d = true)
    (hnew : ∀ d', (s.setAxis ax b).condHolds ax d' = true → b.seen.has d' = decide (d ≠ d'))
    (hcf : b.condFault d = (code, detail, reaction)) {l m : List Job}
    (hp : l.Perm (.check ax d :: m)) (hm : ∀ j ∈ m, ∃ d', j = .check ax d' ∧ d ≠ d') (hlen : m.length ≤ 100) :
    (s.afterFault ax b e code detail).finds ax (b.struck e reaction) none
      (s.close r (({ s with agenda := l } : State).setAxis ax b)) ∧
      (s.close r (({ s with agenda := l } : State).setAxis ax b)).agenda = [] := by
  have hbefore : s.finds ax b (some d) (({ s with agenda := l } : State).setAxis ax b) :=
    ⟨b.seen, rfl, fun d' hd' => by rw [hnew d' hd']; simp⟩
  have hchecks : ∀ j ∈ l, ∃ ax d, j = Job.check ax d := fun j hj => by
    rcases List.mem_cons.1 (hp.subset hj) with rfl | hj
    · exact ⟨_, _, rfl⟩
    · obtain ⟨d', h, -⟩ := hm j hj
      exact ⟨_, _, h⟩
  refine close_drained (noAssigns_setAxis (quiet_iff.1 hq).2.1 hdue hchecks) (drain_more idles_finds idles_finds (fun j ⟨d', h1, h2⟩ =>
      ⟨d', h1, by simp⟩) (m := 4) (fun y hy => ?_) Config.agendaBound r.picks _ m hbefore hp (fun j hj => ?_) ?_)
    fun z hz => ?_
  · obtain ⟨h1, l', h2, h3, h4⟩ := finds_faults hw hf hl hs hr hx hd hcf hy
    exact ⟨h1, l', fun j hj => (h2 j hj).imp fun _ h => ⟨h, by simp⟩, h3, h4⟩
  · obtain ⟨d', h1, h2⟩ := hm j hj
    exact ⟨d', h1, by simpa using h2⟩
  · change m.length + 4 < 4096
    omega
  · obtain ⟨h1, h2⟩ := finds_modState hz
    rw [h1, h2, afterFault_fields.1, afterFault_fields.2]
    exact ⟨(quiet_iff.1 hq).2.2, by rw [List.length_append]; exact Nat.le_refl _⟩

/-- What follows an event, outside STOPPING, that itself has made the fault. -/
theorem close_faulted (hq : s.quiet = true) (h : y.finds ax b none x)
    (hy : y.modState = s.modState) (hch : y.chain.length ≤ s.chain.length + 1) (hn : x.noAssigns)
    (hl : ∀ j ∈ x.agenda, ∃ d, j = .check ax d) (hlen : x.agenda.length ≤ 100) :
    y.finds ax b none (s.close r x) ∧ (s.close r x).agenda = [] := by
  refine close_drained hn (drain_all (y.finds ax b none) _ idles_finds.agenda idles_finds.keeps Config.agendaBound r.picks x
    h (fun j hj => (hl j hj).imp fun _ h => ⟨h, by simp⟩) ?_) fun z hz => ?_
  · change x.agenda.length ≤ 4096
    omega
  · obtain ⟨h1, h2⟩ := finds_modState hz
    rw [h1, h2, hy]
    exact ⟨(quiet_iff.1 hq).2.2, hch⟩

/-! ### What is read after the fault (R18, R69, R160) -/

/-- The fault of an axis with one order, by what it makes of the module (R69, R151, R160). -/
theorem afterFault_spec (hm : s.memoryWf = true) (hg : s.agenda = []) (hs : e.status = .active) (h4 : e.cell < 480)
    (hfly : e.kind.moves = false → e.fly = .none)
    (ht : (s.afterFault ax b e code detail).finds ax (b.struck e reaction) none t) (hta : t.agenda = []) :
    s.reports t ax code detail e.cell ∧ (∃ c, t.axis ax = { b.struck e reaction with seen := c }) ∧
      t.endReads e.cell (bytes4 6 code e.fly.bits 0) 0 b.commanded b.feedback (BitVec.ofNat 32 e.elapsed) ∧
      t.chain = s.chain ++ [e.cell] ∧ (∀ k, ¬ mayWrite s e.cell k → t.readByte k = s.readByte k) ∧
      s.otherAxes t ax ∧ t = { s with
        mem := t.mem, chain := t.chain, causes := t.causes, faults := t.faults, axes := t.axes } := by
  obtain ⟨c, hx, -⟩ := ht
  rw [hta] at hx
  have hreads := headEnded_readsEnd (s := s.faulted (.axis ax) code detail e.cell) (b := b) (code := .faulted) hm h4 hs
    hfly code
  have hbytes (k : Nat) (hk : ¬ mayWrite s e.cell k) := headEnded_other (s.faulted (.axis ax) code detail e.cell) b e
    .faulted code hk
  subst hx
  refine ⟨⟨rfl, rfl⟩, ⟨c, axis_setAxis_same _ _ _⟩, hreads, rfl, hbytes, fun j hj => axis_setAxis_other _ _ hj, ?_⟩
  have hrest (l : List Job) (hl : l = s.agenda) {u : State}
      (hu : u = ({ s.afterFault ax b e code detail with agenda := l } : State).setAxis ax
        { b.struck e reaction with seen := c }) : u = { s with
        mem := u.mem, chain := u.chain, causes := u.causes, faults := u.faults, axes := u.axes } := by
    subst hl hu
    rfl
  exact hrest [] hg.symm rfl

end Sys2Proof.Machine
end

section
/-!
A change of an input that faults an axis in motion, whatever stands in its list (O37; R96, R97, R102, R104, R105).
-/

open Sys2Proof Sys2Proof.Machine

namespace Sys2Proof.Machine

variable {s t x y z : State} {ax : AxisIx} {a b : Axis} {e : Entry} {es : List Entry} {code detail : Nat}
  {reaction : Reaction} {d : Cond} {c : Conds} {r : Race} {i : Instr} {f : Inputs → Inputs}

/-! ### The command (R96) -/

/-- A command that changes an input of an axis sets its inputs. -/
theorem exec_input (h : inputCommand i = some (ax, f)) :
    ∃ r, ∀ s, exec i s = .next (s.setInputs ax (f (s.axis ax).inputs) r) := by
  unfold inputCommand at h
  split at h <;> cases h <;> exact ⟨_, fun s => rfl⟩

/-- The four checks of an axis. -/
def checksOf (ax : AxisIx) : List Job :=
  [.check ax .limit, .check ax .ready, .check ax .alarm, .check ax .follow]

theorem mem_checksOf (ax : AxisIx) (d : Cond) : Job.check ax d ∈ checksOf ax := by
  cases d <;> simp [checksOf]

theorem of_mem_checksOf {j : Job} (h : j ∈ checksOf ax) : ∃ d, j = .check ax d := by
  simp only [checksOf, List.mem_cons, List.not_mem_nil, or_false] at h
  rcases h with h | h | h | h <;> exact ⟨_, h⟩

/-- One check among the four. -/
theorem checksOf_perm (ax : AxisIx) (d : Cond) : ∃ m, (checksOf ax).Perm (.check ax d :: m) ∧
    (∀ j ∈ m, ∃ d', j = .check ax d' ∧ d ≠ d') ∧ m.length ≤ 100 := by
  have hnd : (checksOf ax).Nodup := by simp [checksOf]
  refine ⟨(checksOf ax).erase (.check ax d), List.perm_cons_erase (mem_checksOf ax d), fun j hj => ?_, ?_⟩
  · obtain ⟨hne, hmem⟩ := (hnd.mem_erase_iff).1 hj
    obtain ⟨d', rfl⟩ := of_mem_checksOf hmem
    exact ⟨d', rfl, fun h => hne (by rw [h])⟩
  · rw [List.length_erase_of_mem (mem_checksOf ax d)]
    exact (Nat.le_of_eq rfl : (checksOf ax).length - 1 ≤ 3).trans (by omega)

/-- A change of an input, where no reference run takes it up: the checks of the axis follow (R97). -/
theorem setInputs_checks {g : Inputs} (hg : s.agenda = []) (hne : g ≠ (s.axis ax).inputs)
    (ha : a = { s.axis ax with inputs := g }) (hr : a.state = .running) (hl : a.list = e :: es)
    (hk : e.kind.moves = true) :
    s.setInputs ax g r = s.close r (({ s with agenda := checksOf ax } : State).setAxis ax a) := by
  have hset : s.updAxis ax (fun a => { a with inputs := g }) = s.setAxis ax a := by
    rw [ha]
    rfl
  have href : (s.setAxis ax a).refInput ax = s.setAxis ax a := by
    unfold State.refInput
    dsimp only
    rw [axis_setAxis_same, hl]
    have : ¬ e.kind = .reference := fun h => by rw [h] at hk; cases hk
    simp [this]
  unfold State.setInputs
  rw [if_neg fun h => hne h.symm, hset, href, settle_setAxis_busy (by rw [hr]; exact AxisState.noConfusion)]
  have : (s.setAxis ax a).addChecks ax = ({ s with agenda := s.agenda ++ checksOf ax } : State).setAxis ax a := rfl
  rw [this, hg]
  rfl

/-! ### A fault taken, whatever stands in the list (R69) -/

/-- The axis is in fault, its entry is in the queue and only its checks wait. -/
def State.inFault (x : State) (ax : AxisIx) : Prop := ∃ y f, State.faultKept y ax f x

theorem inFault_drain (n : Nat) (picks : List Nat) (h : x.inFault ax) : (x.drain n picks).inFault ax := by
  obtain ⟨y, f, h⟩ := h
  exact ⟨y, f, faultKept_drain n picks h⟩

/-- The first fault of a running axis puts it in fault. -/
theorem axisFault_inFault (hw : x.watches = []) (hf : x.faultEntry (.axis ax) = none) (hl : a.list = e :: es)
    (hs : e.status = .active) (hr : a.state = .running) (hd : a.ref.assignDue = false)
    (hg : ∀ j ∈ x.agenda, ∃ d, j = .check ax d) : ((x.setAxis ax a).axisFault ax code detail reaction).inFault ax := by
  have hfirst : (x.setAxis ax a).axisFault ax code detail reaction =
      ((x.faulted (.axis ax) code detail a.reportCell).setAxis ax a).firstFault ax code reaction := by
    unfold State.axisFault State.react
    rw [axis_setAxis_same, recordFault_first (show (x.setAxis ax a).faultEntry (.axis ax) = none from hf)]
    rw [show (x.setAxis ax a).faulted (.axis ax) code detail a.reportCell =
      (x.faulted (.axis ax) code detail a.reportCell).setAxis ax a from rfl, axis_setAxis_same, hr]
  obtain ⟨a1, c, b, e', es', -, -, hb, hx⟩ := firstFault_setAxis (x := x.faulted (.axis ax) code detail a.reportCell)
    (ax := ax) (code := code) (reaction := reaction) hw hl hs hd
  obtain ⟨⟨v, hv⟩, -, -⟩ := flushed_spec (a := c) es'
    (x := (x.faulted (.axis ax) code detail a.reportCell).headEnded a1 e' .faulted code)
  rw [hfirst]
  generalize ((x.faulted (.axis ax) code detail a.reportCell).headEnded a1 e' .faulted code).flushed c es' = y at hx hv
  have hentry : ∃ g, y.faultEntry (.axis ax) = some g := by
    have hfaults : y.faults = (x.faulted (.axis ax) code detail a.reportCell).faults := by rw [hv]; rfl
    unfold State.faultEntry at hf ⊢
    rw [hfaults]
    simp only [State.faulted, List.find?_append, hf, Option.none_or]
    exact ⟨_, List.find?_cons_of_pos (by simp)⟩
  obtain ⟨g, hg'⟩ := hentry
  have hag : y.agenda = x.agenda := by rw [hv]; rfl
  have hk : y.faultKept ax g (y.setAxis ax b) := by
    refine ⟨rfl, rfl, by rw [hv]; exact hw, by rw [axis_setAxis_same]; exact hb, fun j hj => ?_, by rw [hv]; rfl, g,
      hg', rfl, rfl, rfl, rfl⟩
    rw [show (y.setAxis ax b).agenda = y.agenda from rfl, hag] at hj
    exact hg j hj
  rcases hx with hx | hx
  · rw [hx]
    exact ⟨y, g, hk⟩
  · rw [hx]
    refine ⟨y, g, faultKept_agenda hk fun j hj => ?_⟩
    rcases List.mem_append.1 hj with hj | hj
    · exact hg j (hag ▸ hj)
    · exact of_mem_checksOf hj

/-- A condition holds that has not been found, and its check waits. -/
def State.trips (s : State) (ax : AxisIx) (a : Axis) (x : State) : Prop :=
  ∃ c d, x = ({ s with agenda := x.agenda } : State).setAxis ax { a with seen := c } ∧
    (∀ j ∈ x.agenda, ∃ d, j = .check ax d) ∧ Job.check ax d ∈ x.agenda ∧
    (s.setAxis ax a).condHolds ax d = true ∧ c.has d = false

/-- A check of such an axis makes its fault, or leaves one more to be made. -/
theorem trips_check (hw : s.watches = []) (hf : s.faultEntry (.axis ax) = none) (hl : a.list = e :: es)
    (hs : e.status = .active) (hr : a.state = .running) (hd : a.ref.assignDue = false) (h : s.trips ax a x)
    {i : Nat} {j : Job} (hj : x.agenda[i]? = some j) :
    (({ x with agenda := x.agenda.eraseIdx i } : State).runJob j).inFault ax ∨
      (s.trips ax a (({ x with agenda := x.agenda.eraseIdx i } : State).runJob j) ∧
        (({ x with agenda := x.agenda.eraseIdx i } : State).runJob j).agenda = x.agenda.eraseIdx i) := by
  obtain ⟨c, d, hx, hchecks, hmem, hholds, hnew⟩ := h
  obtain ⟨d', rfl⟩ := hchecks j (List.mem_of_getElem? hj)
  have hx' : ({ x with agenda := x.agenda.eraseIdx i } : State) =
      ({ s with agenda := x.agenda.eraseIdx i } : State).setAxis ax { a with seen := c } := by
    rw [hx]
    rfl
  have hrest (j : Job) (hj : j ∈ x.agenda.eraseIdx i) : ∃ d, j = .check ax d := hchecks j (List.mem_of_mem_eraseIdx hj)
  change State.inFault (State.checkCond _ ax d') ax ∨ s.trips ax a (State.checkCond _ ax d') ∧
    (State.checkCond _ ax d').agenda = _
  rw [hx', checkCond_setAxis, condHolds_seen]
  split
  · rename_i hcond
    simp only [Bool.and_eq_true, Bool.not_eq_true'] at hcond
    left
    rw [reportCond_eq]
    · exact axisFault_inFault (x := { s with agenda := x.agenda.eraseIdx i })
        (a := { a with seen := c.put d' ((s.setAxis ax a).condHolds ax d') }) hw hf hl hs hr hd hrest
    · intro hlim
      subst hlim
      have hc := hcond.1
      rw [hc]
      simp only [State.condHolds, axis_setAxis_same, Bool.and_eq_true] at hc
      exact ⟨hc.1.1, rfl⟩
  · rename_i hcond
    have hne : d ≠ d' := by
      rintro rfl
      exact hcond (by simp [hholds, hnew])
    refine Or.inr ⟨⟨_, d, rfl, hrest, ?_, hholds, ?_⟩, rfl⟩
    · have := (List.getElem_cons_eraseIdx_perm (List.getElem?_eq_some_iff.1 hj).1).symm.subset hmem
      rw [(List.getElem?_eq_some_iff.1 hj).2] at this
      rcases List.mem_cons.1 this with h | h
      · cases h
        exact absurd rfl hne
      · exact h
    · rw [has_put, if_neg hne]
      exact hnew

/-- Taken to its end, the agenda of such an axis makes its fault. -/
theorem trips_drain (hw : s.watches = []) (hf : s.faultEntry (.axis ax) = none) (hl : a.list = e :: es)
    (hs : e.status = .active) (hr : a.state = .running) (hd : a.ref.assignDue = false) :
    ∀ (n : Nat) (picks : List Nat) (x : State), s.trips ax a x → x.agenda.length ≤ n → (x.drain n picks).inFault ax
  | 0, _, x, ⟨_, _, _, _, hmem, _⟩, hn => by
      rw [List.eq_nil_of_length_eq_zero (Nat.le_zero.1 hn)] at hmem
      cases hmem
  | n + 1, picks, x, h, hn => by
      have hne : x.agenda ≠ [] := fun hnil => by
        obtain ⟨_, _, _, _, hmem, _⟩ := h
        rw [hnil] at hmem
        cases hmem
      have hlt := pickJob_lt (picks.headD 0) hne
      obtain ⟨j, hj⟩ : ∃ j, x.agenda[pickJob (picks.headD 0) x.agenda]? = some j := ⟨_, List.getElem?_eq_getElem hlt⟩
      unfold State.drain
      simp only [hj]
      rcases trips_check hw hf hl hs hr hd h hj with h | ⟨h, hag⟩
      · exact inFault_drain n picks.tail h
      · refine trips_drain hw hf hl hs hr hd n picks.tail _ h ?_
        rw [hag, List.length_eraseIdx_of_lt hlt]
        omega

/-! ### The fault outlasts what follows the event -/

theorem faultTaken_of_inFault (h : x.inFault ax) (hc : (x.axis ax).inputs = a.inputs) :
    x.faultTaken ax ∧ (x.axis ax).inputs = a.inputs := by
  obtain ⟨y, f, -, -, -, ⟨hl, -, hst⟩, -, hfault, g, hg, -⟩ := h
  refine ⟨⟨hst, hl, ⟨g, List.mem_of_find?_eq_some hg, ?_⟩, hfault⟩, hc⟩
  simpa using List.find?_some hg

/-- COLLECT reads inside an event touch neither axes nor the annunciation queue (R153, R154). -/
theorem collectsInside_kept (lo : Nat) (ns : List Nat) : (x.collectsInside lo ns).axes = x.axes ∧
    (x.collectsInside lo ns).faults = x.faults ∧ (x.collectsInside lo ns).causes = x.causes := by
  refine collectsInside_induct (fun y => y.axes = x.axes ∧ y.faults = x.faults ∧ y.causes = x.causes)
    (fun y n hy _ => ?_) ns lo x ⟨rfl, rfl, rfl⟩
  rw [detach_fixed]
  exact hy

/-- A fault taken in what follows an event is there when it is closed. -/
theorem close_taken (hd : (x.followUp r).inFault ax) (hin : ((x.followUp r).axis ax).inputs = a.inputs) :
    (s.close r x).faultTaken ax ∧ ((s.close r x).axis ax).inputs = a.inputs := by
  obtain ⟨m, k, hstop, -⟩ := stopIfAtRest_eq (s := x.followUp r)
  obtain ⟨h1, h2, h3⟩ := collectsInside_kept (x := (x.followUp r).stopIfAtRest) (s.chain.length + 1) r.collects
  obtain ⟨⟨hst, hl, he, hf⟩, hi⟩ := faultTaken_of_inFault hd hin
  have hax : (s.close r x).axis ax = (x.followUp r).axis ax := by
    refine (axis_of_axes h1 ax).trans ?_
    rw [hstop]
    rfl
  refine ⟨⟨by rw [hax]; exact hst, by rw [hax]; exact hl, ?_, ?_⟩, by rw [hax]; exact hi⟩
  · obtain ⟨g, hg, hs⟩ := he
    refine ⟨g, ?_, hs⟩
    change g ∈ (State.collectsInside _ _ _).faults
    rw [finish_eq, h2, hstop]
    exact hg
  · change (State.collectsInside _ _ _).causes.fault = true
    rw [finish_eq, h3, hstop]
    exact hf

end Sys2Proof.Machine
end

section
/-!
Faults of an axis in motion set off by an input or by the encoder (O37; R94 to R98, R102, R104, R105).
-/

open Sys2Proof Sys2Proof.Machine

namespace Sys2Proof.Machine

variable {s t x : State} {ax : AxisIx} {a b : Axis} {e : Entry} {es : List Entry} {code detail : Nat}
  {reaction : Reaction} {d : Cond} {r : Race} {i : Instr} {f : Inputs → Inputs}

/-! ### The conditions of an axis (R98, R102, R104, R105) -/

theorem condHolds_limit (hp : a.ref.phase = .none) :
    (x.setAxis ax a).condHolds ax .limit = (a.moving && a.limitActive a.prof.dir) := by
  have he : a.limitExempt = false := by unfold Axis.limitExempt; rw [hp]
  simp [State.condHolds, axis_setAxis_same, he]

theorem condHolds_ready : (x.setAxis ax a).condHolds ax .ready = (a.moving && !a.readyActive) := by
  simp [State.condHolds, axis_setAxis_same]

theorem condHolds_alarm (h : a.state ≠ .disabled) : (x.setAxis ax a).condHolds ax .alarm = a.alarmActive := by
  simp [State.condHolds, axis_setAxis_same, h]

theorem condHolds_follow_unsupervised (h : a.setup.followLimit = 0) : (x.setAxis ax a).condHolds ax .follow = false := by
  simp [State.condHolds, axis_setAxis_same, h]

/-! ### Inputs -/

/-- A condition that a change of an input makes hold is taken as a fault, whatever stands in the list. -/
theorem input_taken (hi : inputCommand i = some (ax, f)) (hc : s.calm = true) (hw : s.watches = [])
    (hf : s.faultEntry (.axis ax) = none) (hne : f (s.axis ax).inputs ≠ (s.axis ax).inputs)
    (ha : a = { s.axis ax with inputs := f (s.axis ax).inputs }) (hr : a.state = .running)
    (hl : a.list = e :: es) (hs : e.status = .active) (hk : e.kind.moves = true)
    (hd : (s.setAxis ax a).condHolds ax d = true) (hnew : a.seen.has d = false) :
    ∃ t, exec i s = .next t ∧ t.faultTaken ax ∧ (t.axis ax).inputs = f (s.axis ax).inputs := by
  obtain ⟨r, hx⟩ := exec_input hi
  obtain ⟨hg, hdue⟩ := calm_iff.1 hc
  have hduea : a.ref.assignDue = false := by rw [ha]; exact hdue ax
  have hina : a.inputs = f (s.axis ax).inputs := by rw [ha]
  have hin (w : Conds) : ({ a with seen := w } : Axis).inputs = f (s.axis ax).inputs := hina
  have htrips : s.trips ax a (({ s with agenda := checksOf ax } : State).setAxis ax a) :=
    ⟨a.seen, d, rfl, fun _ h => of_mem_checksOf h, mem_checksOf ax d, hd, hnew⟩
  have hna : (({ s with agenda := checksOf ax } : State).setAxis ax a).noAssigns :=
    noAssigns_setAxis hdue hduea fun j hj => (of_mem_checksOf hj).elim fun d h => ⟨ax, d, h⟩
  have hfollow := followUp_of_noAssigns (r := r) hna
  refine ⟨_, hx s, ?_⟩
  rw [setInputs_checks hg hne ha hr hl hk, ← hina]
  refine close_taken ?_ ?_
  · rw [hfollow]
    exact trips_drain hw hf hl hs hr hduea _ _ _ htrips (by change (checksOf ax).length ≤ 4096; simp [checksOf])
  · have hframe := frame_followUp (r := r) (Frame.refl _ (({ s with agenda := checksOf ax } : State).setAxis ax a))
      (by change (s.watches.map (·.cell)).Nodup; rw [hw]; exact List.nodup_nil)
    have hout := hframe.outside ax
    simp only [Axis.outside, Prod.mk.injEq, axis_setAxis_same] at hout
    exact hout.2.1

/-- The fault of a move or JOG that is alone in its list, by the check that makes it. -/
theorem input_faults (hi : inputCommand i = some (ax, f)) (hm : s.memoryWf = true) (hq : s.quiet = true)
    (hw : s.watches = []) (hf : s.faultEntry (.axis ax) = none) (hne : f (s.axis ax).inputs ≠ (s.axis ax).inputs)
    (ha : a = { s.axis ax with inputs := f (s.axis ax).inputs }) (hr : a.state = .running) (hmv : a.moving = true)
    (hl : a.list = [e]) (hs : e.status = .active) (hk : e.kind.moves = true) (hsm : e.opts.smooth = false)
    (h4 : e.cell < 480) (hp : a.ref.phase = .none) (hd : (s.setAxis ax a).condHolds ax d = true)
    (hnew : a.seen.has d = false) (hothers : ∀ d', d' ≠ d → (s.setAxis ax a).condHolds ax d' = false)
    (hcf : a.condFault d = (code, detail, reaction)) :
    ∃ t, exec i s = .next t ∧ s.reports t ax code detail e.cell ∧ (t.axis ax).reacts a reaction ∧
      t.endReads e.cell (bytes4 6 code e.fly.bits 0) 0 a.commanded a.feedback (BitVec.ofNat 32 e.elapsed) ∧
      t.chain = s.chain ++ [e.cell] ∧ (∀ b, ¬ mayWrite s e.cell b → t.readByte b = s.readByte b) ∧
      s.otherAxes t ax ∧ t = { s with
        mem := t.mem, chain := t.chain, causes := t.causes, faults := t.faults, axes := t.axes } := by
  obtain ⟨r, hx⟩ := exec_input hi
  obtain ⟨hg, hdue, -⟩ := quiet_iff.1 hq
  obtain ⟨m, hperm, hmem, hlen⟩ := checksOf_perm ax d
  have hfound (d' : Cond) (hd' : (s.setAxis ax a).condHolds ax d' = true) : a.seen.has d' = decide (d ≠ d') := by
    by_cases h : d' = d
    · subst h
      rw [hnew]
      simp
    · rw [hothers d' h] at hd'
      cases hd'
  obtain ⟨h1, h2⟩ := close_faults (r := r) hq hw hf hl hs hr (by rw [ha]; exact hdue ax)
    (fun _ => by unfold Axis.limitExempt; rw [hp]) hd hfound hcf hperm hmem hlen
  rw [← setInputs_checks hg hne ha hr hl hk] at h1 h2
  obtain ⟨g1, ⟨w, hw'⟩, g3, g4, g5, g6, g7⟩ := afterFault_spec hm hg hs h4 (fun h => by rw [hk] at h; cases h) h1 h2
  obtain ⟨hlin, hfloor⟩ := stopRates_linear a.setup hk hsm
  refine ⟨_, hx s, g1, ?_, g3, g4, g5, g6, g7⟩
  rw [hw']
  exact struck_reacts (e := e) hmv hlin hfloor (by rw [hp]; rfl)

/-! ### The encoder (R94, R95, R98) -/

/-- An encoder edge that counts: the check of the following error follows. -/
theorem exec_encoder {a' b' : Bool} {w : Int} {g : Word} (hq : s.quiet = true) (hw : s.watches = [])
    (ha : a = s.axis ax) (hst : a.state ≠ .disabled)
    (hc : encoderCounts a.setup.encMode a.encA a.encB a' b' = [w]) (hg : g = a.feedback + BitVec.ofInt 32 w)
    (hb : b = { a with
      feedback := g, followErr := followErrorOf a.setup a.commanded g, encA := a', encB := b' }) :
    exec (.encoderEdge ax a' b' r) s =
      .next (s.close r (({ s with agenda := [.check ax .follow] } : State).setAxis ax b)) := by
  have hun (q : Quantity) (u : Sample) : s.evals q u = [] := evals_of_unwatched (by simp [State.unwatched, hw])
  change Host.Outcome.next (s.close r (s.encoder ax a' b')) = _
  rw [encoder_eq ha hst hc hg, hun, hun, hb]
  unfold State.addJobs
  rw [(quiet_iff.1 hq).1]
  rfl

/-- An encoder edge after which the following error is not found too large. -/
theorem encoder_clear (hq : s.quiet = true) (hdue : b.ref.assignDue = false)
    (h : (s.setAxis ax b).condHolds ax .follow = false) :
    s.close r (({ s with agenda := [.check ax .follow] } : State).setAxis ax b) =
      s.setAxis ax { b with seen := { b.seen with follow := false } } := by
  obtain ⟨hg, hd, hm⟩ := quiet_iff.1 hq
  have hself : ({ s with agenda := [] } : State) = s := by rw [← hg]
  refine close_single rfl (noAssigns_setAxis hd hdue fun j hj => ⟨ax, .follow, List.mem_singleton.1 hj⟩) ?_ hg hm
    (Nat.le_succ _)
  change State.checkCond (({ s with agenda := [] } : State).setAxis ax b) ax .follow = _
  rw [hself, checkCond_setAxis, h]
  rfl

/-- A fault of an IDLE axis with an empty list: FAULTED at once, with no order to report (R159, R163). -/
theorem axisFault_empty (hw : x.watches = []) (hf : x.faultEntry (.axis ax) = none) (hl : a.list = [])
    (hst : a.state = .idle) (hm : a.moving = false) : (x.setAxis ax a).axisFault ax code detail reaction =
      (x.faulted (.axis ax) code detail 0xFFFF).setAxis ax a.toFaulted := by
  have hcell : a.reportCell = 0xFFFF := by
    unfold Axis.reportCell
    rw [hl]
    rfl
  have hdrop : ((x.faulted (.axis ax) code detail 0xFFFF).setAxis ax a).dropBinding ax =
      (x.faulted (.axis ax) code detail 0xFFFF).setAxis ax a := by
    unfold State.dropBinding
    rw [axis_setAxis_same, hl]
  unfold State.axisFault State.react
  rw [axis_setAxis_same, hcell, recordFault_first (show (x.setAxis ax a).faultEntry (.axis ax) = none from hf)]
  rw [show (x.setAxis ax a).faulted (.axis ax) code detail 0xFFFF =
    (x.faulted (.axis ax) code detail 0xFFFF).setAxis ax a from rfl, axis_setAxis_same, hst]
  unfold State.firstFault State.faultList
  dsimp only
  rw [axis_setAxis_same, hl, hdrop, hm]
  simp only [List.head?_nil, Bool.false_and, Bool.false_eq_true, if_false]
  rw [flushAll_setAxis_nil hl, becomeFaulted_setAxis (x := x.faulted (.axis ax) code detail 0xFFFF) hw hl]

/-- A following error too large on an IDLE axis. -/
theorem encoder_faults_idle (hq : s.quiet = true) (hw : s.watches = []) (hf : s.faultEntry (.axis ax) = none)
    (hdue : b.ref.assignDue = false) (hl : b.list = []) (hst : b.state = .idle) (hm : b.moving = false)
    (h : (s.setAxis ax b).condHolds ax .follow = true) (hnew : b.seen.follow = false) :
    s.close r (({ s with agenda := [.check ax .follow] } : State).setAxis ax b) =
      (s.faulted (.axis ax) 204 0 0xFFFF).setAxis ax
        ({ b with seen := { b.seen with follow := true } } : Axis).toFaulted := by
  obtain ⟨hg, hd, hmod⟩ := quiet_iff.1 hq
  have hself : ({ s with agenda := [] } : State) = s := by rw [← hg]
  refine close_single rfl (noAssigns_setAxis hd hdue fun j hj => ⟨ax, .follow, List.mem_singleton.1 hj⟩) ?_ hg hmod
    (Nat.le_succ _)
  change State.checkCond (({ s with agenda := [] } : State).setAxis ax b) ax .follow = _
  rw [hself, checkCond_setAxis, h]
  have hn : (true && !b.seen.has .follow) = true := by rw [show b.seen.has .follow = false from hnew]; rfl
  rw [if_pos hn]
  refine (reportCond_eq (fun h => by cases h)).trans ?_
  exact axisFault_empty hw hf hl hst hm

/-- Settles O37: whatever stands in the list; a move or JOG alone; the following error, after an encoder edge. -/
theorem inputFaultsMotion : Obligations.InputFaultsMotion := by
  unfold Obligations.InputFaultsMotion
  refine ⟨fun c ax f s e es a hi hcalm hw hf hne ha hst hmv hl hs hk hp hor => ?_, fun c ax f s e a code detail reaction
    hi _ hm _ hq hw hf hne ha hst hmv hl hs hk hsm h4 hp hfo hor => ?_, fun s ax a' b' r x y d g hr hq hw hx hdis hc hg hy =>
    ⟨fun hmod => ?_, fun hmod h0 hlim hnew hf => ?_⟩⟩
  · have hst' : a.state = .running := by rw [ha]; exact hst
    have hmv' : a.moving = true := by rw [ha]; exact hmv
    have hl' : a.list = e :: es := by rw [ha]; exact hl
    have hp' : a.ref.phase = .none := by rw [ha]; exact hp
    have htaken (d : Cond) := input_taken (d := d) hi hcalm hw hf hne ha hst' hl' hs hk
    rcases hor with ⟨h1, h2⟩ | ⟨h1, h2⟩ | ⟨h1, h2⟩
    · exact htaken .limit (by rw [condHolds_limit hp', hmv', h1]; rfl) h2
    · exact htaken .ready (by rw [condHolds_ready, hmv', h1]; rfl) h2
    · exact htaken .alarm (by rw [condHolds_alarm (by rw [hst']; decide), h1]) h2
  · have hnd : a.state ≠ .disabled := by rw [hst]; decide
    have hfaults (d : Cond) := input_faults (d := d) (code := code) (detail := detail) (reaction := reaction)
      hi hm hq hw hf hne ha hst hmv hl hs hk hsm h4 hp
    have hlimit := condHolds_limit (x := s) (ax := ax) hp
    have hready := condHolds_ready (x := s) (ax := ax) (a := a)
    have halarm := condHolds_alarm (x := s) (ax := ax) hnd
    have hfollow := condHolds_follow_unsupervised (x := s) (ax := ax) hfo
    rw [hmv] at hlimit hready
    rcases hor with ⟨h1, h2, h3, h5, rfl, rfl, rfl⟩ | ⟨h1, h2, h3, h5, rfl, rfl, rfl⟩ | ⟨h1, h2, h3, h5, rfl, rfl, rfl⟩
    · rw [h1] at hlimit
      rw [h3] at hready
      refine hfaults .limit hlimit h2 (fun d' hd' => ?_) ?_
      · cases d'
        · exact absurd rfl hd'
        · exact hready
        · exact halarm.trans h5
        · exact hfollow
      · unfold Axis.condFault
        rw [hp, if_neg (by decide)]
        cases a.prof.dir <;> rfl
    · rw [h1] at hlimit
      rw [h2] at hready
      refine hfaults .ready hready h3 (fun d' hd' => ?_) rfl
      cases d'
      · exact hlimit
      · exact absurd rfl hd'
      · exact halarm.trans h5
      · exact hfollow
    · rw [h1] at hlimit
      rw [h2] at hready
      refine hfaults .alarm (halarm.trans h3) h5 (fun d' hd' => ?_) rfl
      cases d'
      · exact hlimit
      · exact hready
      · exact absurd rfl hd'
      · exact hfollow
  · have hex := exec_encoder (r := r) hq hw hx hdis hc hg hy
    have hdue : y.ref.assignDue = false := by rw [hy, hx]; exact (quiet_iff.1 hq).2.1 ax
    have hno : (s.setAxis ax y).condHolds ax .follow = false := by
      have hm : ((s.setAxis ax y).modState == .running || (s.setAxis ax y).modState == .silent) = false := by
        change (s.modState == .running || s.modState == .silent) = false
        rcases hmod with h | h <;> rw [h] <;> rfl
      simp only [State.condHolds, hm, Bool.false_and]
    rw [encoder_clear hq hdue hno] at hex
    exact ⟨_, hex, axis_setAxis_same _ _ _, otherAxes_setAxis s ax _, rfl⟩
  · have hex := exec_encoder (r := r) hq hw hx hdis hc hg hy
    have hdue : y.ref.assignDue = false := by rw [hy, hx]; exact (quiet_iff.1 hq).2.1 ax
    have hsetup : y.setup = x.setup := by rw [hy]
    have hholds : (s.setAxis ax y).condHolds ax .follow = true := by
      have hm : ((s.setAxis ax y).modState == .running || (s.setAxis ax y).modState == .silent) = true := by
        change (s.modState == .running || s.modState == .silent) = true
        rcases hmod with h | h <;> rw [h] <;> rfl
      have hnd : (y.state != .disabled) = true := by rw [hy]; simpa using hdis
      simp only [State.condHolds, hm, axis_setAxis_same, hnd, hsetup]
      simp [h0, hlim, Axis.followMagnitude]
    have hseen : y.seen.follow = false := by rw [hy]; exact hnew
    refine ⟨fun hst hl hmv => ?_, fun e hm _ hst hmv hl hs hk hsm h4 hp hnl hrd hal => ?_⟩
    · rw [encoder_faults_idle hq hw hf hdue (by rw [hy]; exact hl) (by rw [hy]; exact hst) (by rw [hy]; exact hmv) hholds
        hseen] at hex
      have hl' : y.list = [] := by rw [hy]; exact hl
      refine ⟨_, hex, ⟨rfl, rfl⟩, ?_⟩
      rw [axis_setAxis_same]
      refine ⟨rfl, rfl, ?_, ?_, ?_, otherAxes_setAxis s ax _, rfl⟩
      · exact (congrArg Axis.list (stood_eq (a := { y with seen := { y.seen with follow := true } }))).trans hl'
      · exact stood_feedback.trans (by rw [hy])
      · exact stood_commanded.trans (by rw [hy])
    · have hl' : y.list = [e] := by rw [hy]; exact hl
      have hst' : y.state = .running := by rw [hy]; exact hst
      have hmv' : y.moving = true := by rw [hy]; exact hmv
      have hp' : y.ref.phase = .none := by rw [hy]; exact hp
      have hothers (d' : Cond) (hd' : d' ≠ .follow) : (s.setAxis ax y).condHolds ax d' = false := by
        cases d'
        · rw [condHolds_limit hp', hmv', show y.limitActive y.prof.dir = false by rw [hy]; exact hnl]
          rfl
        · rw [condHolds_ready, hmv', show y.readyActive = true by rw [hy]; exact hrd]
          rfl
        · rw [condHolds_alarm (by rw [hst']; decide), show y.alarmActive = false by rw [hy]; exact hal]
        · exact absurd rfl hd'
      have hfound (d' : Cond) (hd' : (s.setAxis ax y).condHolds ax d' = true) :
          y.seen.has d' = decide (Cond.follow ≠ d') := by
        by_cases h : d' = .follow
        · subst h
          exact hseen
        · rw [hothers d' h] at hd'
          cases hd'
      obtain ⟨h1, h2⟩ := close_faults (r := r) (d := .follow) (m := []) hq hw hf hl' hs hst' hdue
        (fun _ => by unfold Axis.limitExempt; rw [hp']) hholds hfound
        (show y.condFault .follow = (204, 0, x.setup.followReaction) by rw [← hsetup]; rfl) (List.Perm.refl _)
        (fun _ h => absurd h List.not_mem_nil) (Nat.zero_le _)
      obtain ⟨g1, ⟨w, hw'⟩, g3, g4, g5, g6, g7⟩ := afterFault_spec hm (quiet_iff.1 hq).1 hs h4
        (fun h => by rw [hk] at h; cases h) h1 h2
      obtain ⟨hlin, hfloor⟩ := stopRates_linear y.setup hk hsm
      refine ⟨_, hex, g1, ?_, ?_, g4, g5, g6, g7⟩
      · rw [hw']
        exact struck_reacts (e := e) hmv' hlin hfloor (by rw [hp']; rfl)
      · rw [show y.commanded = x.commanded by rw [hy], show y.feedback = g by rw [hy]] at g3
        exact g3

end Sys2Proof.Machine
end

section
/-!
Reference runs that a fault ends (O40; R134, R138 to R143, R147): at once at creep speed and at standstill, by the fault
ramp in SEEK_BACK.
-/

open Sys2Proof Sys2Proof.Machine

namespace Sys2Proof.Machine

variable {s t x y z : State} {ax : AxisIx} {a b : Axis} {e : Entry} {code detail : Nat} {reaction : Reaction} {d : Cond}
  {c : Conds} {r : Race} {i : Instr} {f : Inputs → Inputs} {l : List Job}

/-! ### Faults at once (R147, R163) -/

/-- Nothing that is checked holds of an axis that stands, without alarm and supervision of the following error. -/
theorem condHolds_stands (hm : b.moving = false) (ha : b.alarmActive = false) (hf : b.setup.followLimit = 0) (d : Cond) :
    (y.setAxis ax b).condHolds ax d = false := by
  cases d <;> simp [State.condHolds, axis_setAxis_same, hm, ha, hf]

/-- Where nothing holds, nothing new is found. -/
theorem finds_nothing (h : ∀ d, (y.setAxis ax b).condHolds ax d = false) :
    y.finds ax b none (({ y with agenda := l } : State).setAxis ax { b with seen := c }) :=
  ⟨c, rfl, fun d hd => by rw [h d] at hd; cases hd⟩

theorem struck_stands (hno : b.rampsOn e reaction = false) (ha : b.alarmActive = false) (hf : b.setup.followLimit = 0)
    (d : Cond) : (y.setAxis ax (b.struck e reaction)).condHolds ax d = false := by
  have hfrom := struck_from b e reaction
  rcases struck_cases b e reaction with ⟨h, -⟩ | ⟨-, h⟩
  · rw [hno] at h
    cases h
  · refine condHolds_stands h.moving ?_ (by rw [hfrom.setup]; exact hf) d
    unfold Axis.alarmActive at ha ⊢
    rw [hfrom.inputs, hfrom.setup]
    exact ha

/-- A fault to which the reaction is at once. -/
theorem axisFault_atOnce (hw : s.watches = []) (hf : s.faultEntry (.axis ax) = none) (hl : b.list = [e])
    (hs : e.status = .active) (hr : b.state = .running) (hno : b.rampsOn e reaction = false) :
    (({ s with agenda := l } : State).setAxis ax b).axisFault ax code detail reaction =
      ({ s.afterFault ax b e code detail with agenda := l } : State).setAxis ax (b.struck e reaction) := by
  have h := axisFault_alone (x := { s with agenda := l }) (ax := ax) (a := b) (code := code) (detail := detail)
    (reaction := reaction) hw hf hl hs hr
  rw [if_neg (by rw [hno]; decide)] at h
  rw [h]
  exact congrArg (State.setAxis · ax (b.struck e reaction)) (afterFault_agenda (b := b) (c := b.seen) l)

/-! ### What the fault leaves of a reference run -/

/-- A fault has ended the only order of an axis, a REFERENCE; `b` is the axis that the fault struck. -/
structure State.RunFaulted (s : State) (ax : AxisIx) (b : Axis) (e : Entry) (code detail : Nat) (reaction : Reaction)
    (t : State) : Prop where
  finds : (s.afterFault ax b e code detail).finds ax (b.struck e reaction) none t
  agenda : t.agenda = []

/-- What O40 says of every fault of a run (R18, R69, R109, R134). -/
theorem State.RunFaulted.spec (h : s.RunFaulted ax b e code detail reaction t) (hm : s.memoryWf = true)
    (hg : s.agenda = []) (hs : e.status = .active) (hk : e.kind = .reference) (h4 : e.cell < 480) (hfly : e.fly = .none) :
    s.reports t ax code detail e.cell ∧ (t.axis ax).referenced = false ∧ (t.axis ax).ref.phase = .none ∧
      (t.axis ax).commanded = b.commanded ∧ (t.axis ax).feedback = b.feedback ∧
      (∃ c, t.axis ax = { b.struck e reaction with seen := c }) ∧
      t.endReads e.cell (bytes4 6 code 0 0) 0 b.commanded b.feedback (BitVec.ofNat 32 e.elapsed) ∧
      t.chain = s.chain ++ [e.cell] ∧ (∀ k, ¬ mayWrite s e.cell k → t.readByte k = s.readByte k) ∧
      s.otherAxes t ax ∧ t = { s with
        mem := t.mem, chain := t.chain, causes := t.causes, faults := t.faults, axes := t.axes } := by
  obtain ⟨g1, ⟨c, hc⟩, g3, g4, g5, g6, g7⟩ := afterFault_spec hm hg hs h4 (fun _ => hfly) h.finds h.agenda
  have hf := struck_from b e reaction
  have href := hf.ref
  have hrd := hf.referenced
  rw [if_pos hk] at href hrd
  rw [hfly] at g3
  refine ⟨g1, ?_, ?_, ?_, ?_, ⟨c, hc⟩, g3, g4, g5, g6, g7⟩
  · rw [hc]
    exact hrd
  · rw [hc]
    change (b.struck e reaction).ref.phase = .none
    rw [href]
    rfl
  · rw [hc]
    exact hf.commanded
  · rw [hc]
    exact hf.feedback

/-- At creep speed and at standstill the axis is FAULTED at once (R147). -/
theorem State.RunFaulted.atOnce (h : s.RunFaulted ax b e code detail reaction t) (hm : s.memoryWf = true)
    (hg : s.agenda = []) (hs : e.status = .active) (hk : e.kind = .reference) (h4 : e.cell < 480) (hfly : e.fly = .none)
    (hor : b.moving = false ∨ b.ref.phase.creeps = true) :
    (t.axis ax).state = .faulted ∧ (t.axis ax).stopCause = .fault ∧ (t.axis ax).list = [] ∧
      (t.axis ax).moving = false ∧ (t.axis ax).driveEnable = false := by
  obtain ⟨-, -, -, -, -, ⟨c, hc⟩, -⟩ := h.spec hm hg hs hk h4 hfly
  have hf := struck_from b e reaction
  obtain ⟨-, h1, h2, h3⟩ := struck_atOnce (e := e) (reaction := reaction) (Or.inr hor)
  rw [hc]
  exact ⟨h1, hf.cause, hf.list, h2, h3⟩

/-- An event that has itself made the fault, at once, and leaves nothing but the checks of the axis. -/
theorem runFaulted_closed (hq : s.quiet = true) (hdue : b.ref.assignDue = false)
    (hno : b.rampsOn e reaction = false) (ha : b.alarmActive = false) (hf : b.setup.followLimit = 0)
    (hl : ∀ j ∈ l, ∃ d, j = .check ax d) (hlen : l.length ≤ 100) :
    s.RunFaulted ax b e code detail reaction
      (s.close r (({ s.afterFault ax b e code detail with agenda := l } : State).setAxis ax (b.struck e reaction))) := by
  have hstood := struck_stands (y := s.afterFault ax b e code detail) (ax := ax) hno ha hf
  have hrefdue : (b.struck e reaction).ref.assignDue = false := by
    rw [(struck_from b e reaction).ref]
    split
    · rfl
    · exact hdue
  have hna : (({ s.afterFault ax b e code detail with agenda := l } : State).setAxis ax (b.struck e reaction)).noAssigns :=
    noAssigns_setAxis (s := s.afterFault ax b e code detail) (quiet_iff.1 hq).2.1 hrefdue fun j hj =>
      (hl j hj).elim fun d h => ⟨ax, d, h⟩
  obtain ⟨h1, h2⟩ := close_faulted (r := r) (y := s.afterFault ax b e code detail) hq
    (finds_nothing (c := (b.struck e reaction).seen) (l := l) hstood) rfl
    (by rw [afterFault_fields.2, List.length_append]; exact Nat.le_refl _) hna hl hlen
  exact ⟨h1, h2⟩

/-! ### By a pulse (R141) -/

/-- The sequencer of an axis that searches the index (R141). -/
theorem progress_index (hl : b.list = [e]) (hk : e.kind = .reference) (hp : b.prof.plan = none) :
    (x.setAxis ax b).progress ax = (x.setAxis ax b).indexSpan ax := by
  have h1 : (x.setAxis ax b).pendingIfDue ax = x.setAxis ax b := by
    unfold State.pendingIfDue
    dsimp only
    rw [axis_setAxis_same, hp]
  have h2 : b.edgeDecelReached = false :=
    edgeDecelReached_of_kind (e := e) (by rw [hl]; rfl) (by rw [hk]; decide)
  have h3 : b.planDone = false := by
    unfold Axis.planDone
    rw [hp]
  unfold State.progress
  dsimp only
  rw [h1, axis_setAxis_same, decideIfDue_of_not_positional (e := e) (by rw [hl]; rfl) (by rw [hk]; rfl),
    edgeDecelIfDue_setAxis, h2]
  exact congrArg (State.indexSpan · ax) (arriveIfDue_short h3)

/-- The end of the index search span (R141). -/
theorem indexSpan_complete (hr : b.state = .running) (hm : b.moving = true) (hph : b.ref.phase = .index)
    (hspan : b.setup.indexSpan ≤ (b.commanded.toInt - b.ref.indexStart.toInt).natAbs) :
    (x.setAxis ax b).indexSpan ax = (x.setAxis ax b).axisFault ax 208 81 b.setup.limitReaction := by
  unfold State.indexSpan
  dsimp only
  rw [axis_setAxis_same]
  refine (if_pos (by rw [hph, hr, hm]; simpa using hspan)).trans ?_
  unfold State.refFail
  rw [axis_setAxis_same]
  rfl

/-- The pulse that completes the index search span (R141, R147). -/
theorem pulse_fails (hq : s.quiet = true) (hw : s.watches = []) (hf : s.faultEntry (.axis ax) = none)
    (ha : a = s.axis ax) (hr : a.state = .running) (hl : a.list = [e]) (hk : e.kind = .reference) (hs : e.status = .active)
    (hm : a.moving = true) (hu : a.undisturbed) (hph : a.ref.phase = .index) (hp : a.prof.plan = none)
    (hlow : -2147483648 ≤ a.commanded.toInt + a.prof.dir.sign) (hhigh : a.commanded.toInt + a.prof.dir.sign ≤ 2147483647)
    (hspan : a.setup.indexSpan ≤ (a.commanded.toInt + a.prof.dir.sign - a.ref.indexStart.toInt).natAbs) :
    a.pulsed.commanded.toInt = a.commanded.toInt + a.prof.dir.sign ∧ a.pulsed.feedback = a.feedback ∧
      a.pulsed.ref = a.ref ∧ ∃ t, exec (.outputPulse ax r) s = .next t ∧
        s.RunFaulted ax a.pulsed e 208 81 a.setup.limitReaction t := by
  obtain ⟨k1, -, -, k4, k5, k6, k7, k8, -, -, k11⟩ := pulsed_keeps a
  have hhere : a.pulsed.commanded.toInt = a.commanded.toInt + a.prof.dir.sign := by
    rw [k11]
    exact toInt_wordOfInt hlow hhigh
  have hcounted : a.counted.prof.plan = none := by
    change a.prof.plan.map _ = none
    rw [hp]
    rfl
  have hplan : a.pulsed.prof.plan = none := by rw [pulsed_of_no_plan hcounted]; exact hcounted
  have hmv : a.pulsed.moving = true := by rw [pulsed_of_no_plan hcounted]; exact hm
  have hup : a.pulsed.undisturbed := pulsed_undisturbed hu
  have hno : a.pulsed.rampsOn e a.setup.limitReaction = false :=
    (struck_atOnce (Or.inr (Or.inr (by rw [k5, hph]; rfl)))).1
  have hfrom := struck_from a.pulsed e a.setup.limitReaction
  have hus : (a.pulsed.struck e a.setup.limitReaction).undisturbed :=
    undisturbed_congr hfrom.setup hfrom.inputs hfrom.dir hup
  have hhere' : a.pulsed.commanded.toInt - a.pulsed.ref.indexStart.toInt =
      a.commanded.toInt + a.prof.dir.sign - a.ref.indexStart.toInt := by rw [hhere, k5]
  refine ⟨hhere, k8, k5, ?_⟩
  have hcan : (s.axis ax).canPulse = true := by
    rw [← ha]
    exact canPulse_of hm (by rw [hr]; decide) (by rw [hr]; decide) hlow hhigh
  have hstep (l : List Job) (c : Conds) : ∃ c', (({ s with agenda := l } : State).setAxis ax
      { (s.axis ax).pulsed with seen := c }).progress ax = ({ s.afterFault ax a.pulsed e 208 81 with
        agenda := l } : State).setAxis ax { a.pulsed.struck e a.setup.limitReaction with seen := c' } := by
    rw [← ha]
    obtain ⟨c', hc'⟩ := struck_withSeen a.pulsed c e a.setup.limitReaction
    refine ⟨c', ?_⟩
    rw [progress_index (b := { a.pulsed with seen := c }) (k4.trans hl) hk hplan]
    have hfault := axisFault_atOnce (ax := ax) (b := { a.pulsed with seen := c }) (code := 208) (detail := 81) (l := l)
      hw hf (k4.trans hl) hs (k1.trans hr) hno
    rw [hc'] at hfault
    rw [indexSpan_complete (b := { a.pulsed with seen := c }) (k1.trans hr) hmv (by rw [← hph]; exact congrArg RefCtl.phase k5)
      (by change a.pulsed.setup.indexSpan ≤ _; rw [hhere', k6]; exact hspan)]
    rw [show ({ a.pulsed with seen := c } : Axis).setup.limitReaction = a.setup.limitReaction by
      exact congrArg AxisSetup.limitReaction k6, hfault]
    rfl
  obtain ⟨c, hx⟩ := exec_pulse_progress (r := r) (b := a.pulsed.struck e a.setup.limitReaction)
    (y := s.afterFault ax a.pulsed e 208 81) hq hw hcan (by rw [← ha]; exact hu) hus (quiet_iff.1 hq).1 rfl
    (by rw [afterFault_fields.2, List.length_append]; exact Nat.le_refl _) hstep
  refine ⟨_, hx, ⟨c, ?_, fun d hd => ?_⟩, (quiet_iff.1 hq).1⟩
  · rfl
  · rw [condHolds_undisturbed (by rw [axis_setAxis_same]; exact hus)] at hd
    cases hd

end Sys2Proof.Machine
end

section
/-!
Faults of a reference run by an input and at the end of a pause (O40; R134, R137 to R141, R143, R147).
-/

open Sys2Proof Sys2Proof.Machine

namespace Sys2Proof.Machine

variable {s t x y z : State} {ax : AxisIx} {a b : Axis} {e : Entry} {code detail : Nat} {reaction : Reaction} {d : Cond}
  {c : Conds} {r : Race} {i : Instr} {f : Inputs → Inputs} {l : List Job} {w : Bool}

/-! ### A change of an input reaches the run (R134, R137 to R141) -/

/-- A change of an input, by what the reference run makes of it. -/
theorem setInputs_run {g : Inputs} (hne : g ≠ (s.axis ax).inputs) (hb : b = { s.axis ax with inputs := g })
    (hl : b.list = [e]) (hr : b.state = .running) (hk : e.kind = .reference) (hdue : b.ref.assignDue = false)
    (href : (s.setAxis ax b).refInputOf ax e = x.setAxis ax a) (hst : a.state ≠ .idle) :
    s.setInputs ax g r = s.close r ((x.setAxis ax a).addChecks ax) := by
  have hset : s.updAxis ax (fun a => { a with inputs := g }) = s.setAxis ax b := by
    rw [hb]
    rfl
  have hin : (s.setAxis ax b).refInput ax = x.setAxis ax a := by
    rw [← href]
    unfold State.refInput
    dsimp only
    rw [axis_setAxis_same, hl]
    simp [hr, hk, hdue]
  unfold State.setInputs
  rw [if_neg fun h => hne h.symm, hset, hin, settle_setAxis_busy hst]

/-- What SEEK_BACK notes of the reference switch. -/
def Axis.seesSwitch (b : Axis) (w : Bool) : Axis := { b with ref := { b.ref with switchSeen := w } }

/-- In these phases the run takes nothing from the change but, in SEEK_BACK, the switch (R138 to R140). -/
theorem refInputOf_waits (h : (b.ref.phase = .seekBack ∧
      (b.ref.rampStop = true ∨ b.referenceActive = true ∨ b.ref.switchSeen = false)) ∨
      (b.ref.phase = .clear ∧ b.searchActive e = true) ∨ (b.ref.phase = .creep ∧ b.searchActive e = false)) :
    ∃ w, (x.setAxis ax b).refInputOf ax e = x.setAxis ax (b.seesSwitch w) := by
  have hself : b.seesSwitch b.ref.switchSeen = b := rfl
  unfold State.refInputOf
  dsimp only
  rw [axis_setAxis_same]
  rcases h with ⟨hp, h⟩ | ⟨hp, h⟩ | ⟨hp, h⟩
  · rw [hp]
    dsimp only
    cases hrs : b.ref.rampStop
    · cases hra : b.referenceActive
      · rw [hrs, hra] at h
        have hsw : b.ref.switchSeen = false := by simpa using h
        refine ⟨b.ref.switchSeen, ?_⟩
        change (if b.ref.switchSeen = true then _ else _) = _
        exact if_neg (by rw [hsw]; decide)
      · refine ⟨true, ?_⟩
        rw [if_neg Bool.false_ne_true, if_pos rfl]
        unfold State.updRef
        rw [updAxis_setAxis]
        rfl
    · exact ⟨b.ref.switchSeen, rfl⟩
  · rw [hp]
    dsimp only
    rw [h]
    exact ⟨b.ref.switchSeen, rfl⟩
  · rw [hp]
    dsimp only
    rw [h]
    exact ⟨b.ref.switchSeen, rfl⟩

/-- The limit in the direction of travel, met in a phase that does not seek it (R102, R138, R139, R140). -/
theorem input_limit (hi : inputCommand i = some (ax, f)) (hq : s.quiet = true) (hw : s.watches = [])
    (hf : s.faultEntry (.axis ax) = none) (hne : f (s.axis ax).inputs ≠ (s.axis ax).inputs)
    (hb : b = { s.axis ax with inputs := f (s.axis ax).inputs }) (hr : b.state = .running) (hl : b.list = [e])
    (hk : e.kind = .reference) (hs : e.status = .active) (hm : b.moving = true) (ha : b.alarmActive = false)
    (hrd : b.readyActive = true) (hfo : b.setup.followLimit = 0) (hlim : b.limitActive b.prof.dir = true)
    (hnew : b.seen.limit = false) (hx : (b.seesSwitch w).limitExempt = false)
    (href : (s.setAxis ax b).refInputOf ax e = s.setAxis ax (b.seesSwitch w))
    (hcf : b.condFault .limit = (code, detail, b.setup.limitReaction)) :
    ∃ t, exec i s = .next t ∧ s.RunFaulted ax (b.seesSwitch w) e code detail b.setup.limitReaction t := by
  obtain ⟨r, hex⟩ := exec_input hi
  obtain ⟨hg, hdue, -⟩ := quiet_iff.1 hq
  have hdueb : b.ref.assignDue = false := by rw [hb]; exact hdue ax
  obtain ⟨m, hperm, hmem, hlen⟩ := checksOf_perm ax .limit
  have hlimit : (s.setAxis ax (b.seesSwitch w)).condHolds ax .limit = true := by
    simp only [State.condHolds, axis_setAxis_same, hx]
    change (b.moving && b.limitActive b.prof.dir && !false) = true
    rw [hm, hlim]
    rfl
  have hfound (d : Cond) (hd : (s.setAxis ax (b.seesSwitch w)).condHolds ax d = true) :
      (b.seesSwitch w).seen.has d = decide (Cond.limit ≠ d) := by
    cases d with
    | limit => exact hnew
    | ready =>
        rw [condHolds_ready, show (b.seesSwitch w).readyActive = true from hrd, Bool.not_true, Bool.and_false] at hd
        cases hd
    | alarm =>
        rw [condHolds_alarm (a := b.seesSwitch w) (show b.state ≠ .disabled by rw [hr]; decide),
          show (b.seesSwitch w).alarmActive = false from ha] at hd
        cases hd
    | follow =>
        rw [condHolds_follow_unsupervised (a := b.seesSwitch w) hfo] at hd
        cases hd
  obtain ⟨h1, h2⟩ := close_faults (r := r) (b := b.seesSwitch w) hq hw hf hl hs hr hdueb (fun _ => hx) hlimit hfound hcf
    hperm hmem hlen
  refine ⟨_, hex s, ?_⟩
  rw [setInputs_run hne hb hl hr hk hdueb href (show b.state ≠ .idle by rw [hr]; decide)]
  have hadd : (s.setAxis ax (b.seesSwitch w)).addChecks ax =
      ({ s with agenda := checksOf ax } : State).setAxis ax (b.seesSwitch w) := by
    change ({ s with agenda := s.agenda ++ checksOf ax } : State).setAxis ax (b.seesSwitch w) = _
    rw [hg]
    rfl
  rw [hadd]
  exact ⟨h1, h2⟩

/-! ### A reference run that fails at once (R147) -/

/-- REFERENCE_FAILED in a phase at creep speed, or at standstill. -/
theorem refFail_atOnce {ph : RefPhase} {reason : Nat} (hw : s.watches = []) (hf : s.faultEntry (.axis ax) = none)
    (hl : b.list = [e]) (hs : e.status = .active) (hr : b.state = .running)
    (hno : b.rampsOn e b.setup.limitReaction = false) : (s.setAxis ax b).refFail ax ph reason =
      (s.afterFault ax b e 208 (ph.code * 16 + reason)).setAxis ax (b.struck e b.setup.limitReaction) := by
  unfold State.refFail
  rw [axis_setAxis_same]
  exact axisFault_atOnce (l := s.agenda) hw hf hl hs hr hno

/-- The axis where INDEX begins (R140, R141). -/
def Axis.indexing (b : Axis) : Axis :=
  { b with ref := { (b.phased .index).ref with indexStart := b.commanded } }

/-- INDEX that begins with the index active (R141). -/
theorem refInputOf_index (hp : b.ref.phase = .creep) (hsa : b.searchActive e = true)
    (hix : e.params.indexUse ≠ 0) (hia : b.indexActive = true) :
    (s.setAxis ax b).refInputOf ax e = (s.setAxis ax b.indexing).refFail ax .index 3 := by
  unfold State.refInputOf
  dsimp only
  rw [axis_setAxis_same, hp]
  dsimp only
  rw [hsa, if_neg (by decide), if_neg hix]
  unfold State.beginIndex
  rw [setPhase_setAxis]
  unfold State.updRef
  dsimp only
  rw [updAxis_setAxis, axis_setAxis_same, axis_setAxis_same]
  refine (if_pos ?_).trans rfl
  exact hia

/-- A change of an input that ends CREEP at an index that is active already (R141, R147). -/
theorem input_index (hi : inputCommand i = some (ax, f)) (hq : s.quiet = true) (hw : s.watches = [])
    (hf : s.faultEntry (.axis ax) = none) (hne : f (s.axis ax).inputs ≠ (s.axis ax).inputs)
    (hb : b = { s.axis ax with inputs := f (s.axis ax).inputs }) (hr : b.state = .running) (hl : b.list = [e])
    (hk : e.kind = .reference) (hs : e.status = .active) (ha : b.alarmActive = false) (hfo : b.setup.followLimit = 0)
    (hp : b.ref.phase = .creep) (hsa : b.searchActive e = true) (hix : e.params.indexUse ≠ 0) (hia : b.indexActive = true) :
    ∃ t, exec i s = .next t ∧ s.RunFaulted ax b.indexing e 208 83 b.setup.limitReaction t := by
  obtain ⟨r, hex⟩ := exec_input hi
  obtain ⟨hg, hdue, -⟩ := quiet_iff.1 hq
  have hdueb : b.ref.assignDue = false := by rw [hb]; exact hdue ax
  have hno : b.indexing.rampsOn e b.setup.limitReaction = false := (struck_atOnce (Or.inr (Or.inr rfl))).1
  have hst : (b.indexing.struck e b.setup.limitReaction).state ≠ .idle := by
    rw [(struck_atOnce (a := b.indexing) (e := e) (reaction := b.setup.limitReaction) (Or.inr (Or.inr rfl))).2.1]
    decide
  have href := (refInputOf_index (s := s) (ax := ax) hp hsa hix hia).trans
    (refFail_atOnce (b := b.indexing) hw hf hl hs hr hno)
  refine ⟨_, hex s, ?_⟩
  rw [setInputs_run hne hb hl hr hk hdueb href hst]
  have hadd : ((s.afterFault ax b.indexing e 208 (RefPhase.index.code * 16 + 3)).setAxis ax
      (b.indexing.struck e b.indexing.setup.limitReaction)).addChecks ax =
      ({ s.afterFault ax b.indexing e 208 83 with agenda := checksOf ax } : State).setAxis ax
        (b.indexing.struck e b.setup.limitReaction) := by
    change ({ s.afterFault ax b.indexing e 208 83 with agenda := s.agenda ++ checksOf ax } : State).setAxis ax _ = _
    rw [hg]
    rfl
  rw [hadd]
  exact runFaulted_closed hq hdueb hno ha hfo (fun j hj => of_mem_checksOf hj) (by simp [checksOf])

/-! ### At the end of a pause (R140, R143, R145) -/

/-- A phase after a pause that fails as it begins. -/
theorem pause_fails {ph : RefPhase} {reason : Nat} (hq : s.quiet = true) (hw : s.watches = [])
    (hf : s.faultEntry (.axis ax) = none) (ha : a = s.axis ax) (hr : a.state = .running) (hl : a.list = [e])
    (hs : e.status = .active) (hal : a.alarmActive = false) (hfo : a.setup.followLimit = 0)
    (hm : a.moving = false) (hp : a.ref.phase = .pause) (ht : a.ref.pauseTimer = some 0)
    (hbegin : (s.setAxis ax a).beginPhase ax e a.ref.next = (s.setAxis ax (a.phased ph)).refFail ax ph reason) :
    ∃ t, exec (.pauseExpiry ax r) s = .next t ∧
      s.RunFaulted ax (a.phased ph) e 208 (ph.code * 16 + reason) a.setup.limitReaction t := by
  obtain ⟨hg, hdue, -⟩ := quiet_iff.1 hq
  obtain ⟨hno, hst, -⟩ := struck_atOnce (a := a.phased ph) (e := e) (reaction := a.setup.limitReaction)
    (Or.inr (Or.inl hm))
  have hself : s.setAxis ax a = s := by rw [ha, setAxis_axis]
  have hpd : (s.axis ax).pauseDue = true := by
    rw [← ha]
    unfold Axis.pauseDue
    rw [hr, hp, ht]
    rfl
  have hex : exec (.pauseExpiry ax r) s = .next (s.close r ((s.beginPhase ax e (s.axis ax).ref.next).settle ax)) := by
    change execPauseExpiry ax r s = _
    unfold execPauseExpiry State.head?
    rw [← ha, hl]
    dsimp only [List.head?_cons]
    rw [ha, if_pos hpd]
  rw [hself, refFail_atOnce (b := a.phased ph) hw hf hl hs hr hno] at hbegin
  rw [← ha, hbegin, settle_setAxis_busy (by rw [show (a.phased ph).setup = a.setup from rfl, hst]; decide)] at hex
  have hclosed := runFaulted_closed (ax := ax) (r := r) (l := []) (code := 208) (detail := ph.code * 16 + reason) hq
    (show (a.phased ph).ref.assignDue = false by rw [ha]; exact hdue ax) hno hal hfo
    (fun j hj => absurd hj List.not_mem_nil) (Nat.zero_le _)
  have hag : ({ s.afterFault ax (a.phased ph) e 208 (ph.code * 16 + reason) with agenda := [] } : State) =
      s.afterFault ax (a.phased ph) e 208 (ph.code * 16 + reason) := by
    rw [← hg]
    rfl
  rw [hag] at hclosed
  exact ⟨_, hex, hclosed⟩

/-- CREEP that begins with the search signal active (R140, R147). -/
theorem beginCreep_fails (hsa : a.searchActive e = true) :
    (s.setAxis ax a).beginPhase ax e .creep = (s.setAxis ax (a.phased .creep)).refFail ax .creep 4 := by
  change (s.setAxis ax a).beginCreep ax e = _
  unfold State.beginCreep
  dsimp only
  rw [setPhase_setAxis, axis_setAxis_same]
  exact if_pos hsa

/-- An OFFSET that leads out of the 32-bit range (R145, R147). -/
theorem beginOffset_fails (h0 : e.params.offset ≠ 0) (h : a.commanded.toInt + e.params.offset < -2147483648 ∨
      2147483647 < a.commanded.toInt + e.params.offset) :
    (s.setAxis ax a).beginPhase ax e .offset = (s.setAxis ax (a.phased .offset)).refFail ax .offset 5 := by
  change (s.setAxis ax a).beginOffset ax e = _
  unfold State.beginOffset
  dsimp only
  rw [if_neg h0, setPhase_setAxis, axis_setAxis_same]
  refine if_pos ?_
  rw [Bool.or_eq_true, decide_eq_true_eq, decide_eq_true_eq]
  exact h

end Sys2Proof.Machine
end

section
/-!
Reference runs stopped, and the statement on what ends them early (O40; R87, R134, R147, R148).
-/

open Sys2Proof Sys2Proof.Machine

namespace Sys2Proof.Machine

variable {s t x y z : State} {ax : AxisIx} {a b : Axis} {e : Entry} {code detail : Nat} {reaction : Reaction}
  {r : Race} {i : Instr} {f : Inputs → Inputs} {q : Plan}

/-! ### STOP_AXIS (R148) -/

/-- STOP_AXIS on a running REFERENCE order that is alone, with or without a flush. -/
theorem stopAxis_reference (hr : (s.axis ax).state = .running) (hl : (s.axis ax).list = [e]) (hk : e.kind = .reference)
    (flush : Bool) : s.stopAxis ax flush = .done ((s.stopReference ax e .request false).settle ax) := by
  have hf : s.flushIf ax flush = s := by
    cases flush
    · rfl
    · have h := flushTail_setAxis (x := s) (ax := ax) hl
      have hself : ({ s.axis ax with list := [unboundHead e []] } : Axis) = s.axis ax := by
        rw [show [unboundHead e []] = (s.axis ax).list from hl.symm]
      rw [hself] at h
      change s.flushTail ax = s
      rw [setAxis_axis] at h
      exact h.trans (setAxis_axis (x := s.flushed (s.axis ax) []))
  simp only [State.stopAxis, hr, hl, List.head?_cons, hk, hf]

/-- STOP_AXIS on a run at creep speed or standstill (R148). -/
theorem stop_atOnce (hw : s.watches = []) (hr : (s.axis ax).state = .running) (hl : (s.axis ax).list = [e])
    (hk : e.kind = .reference) (hs : e.status = .active)
    (h : (s.axis ax).moving = false ∨ (s.axis ax).ref.phase.creeps = true) (flush : Bool) :
    s.stopAxis ax flush = .done ((s.headEnded (s.axis ax) e .stopped 0).setAxis ax ((s.axis ax).endedWith e .stopped)) := by
  have hstop := stopReference_atOnce (y := s) (ax := ax) (a := s.axis ax) (e := e) (c := .request) (abrupt := false)
    (Or.inr h)
  rw [finishHead_setAxis (Or.inl hw) hl hs, setAxis_axis] at hstop
  rw [stopAxis_reference hr hl hk, hstop]
  exact congrArg Carried.done (settle_eq_self (Or.inr (by rw [axis_setAxis_same]; rfl)))

/-- The Reference Controller after a run that was stopped (R109, R134, R144). -/
theorem endedWith_reference (hk : e.kind = .reference) : (a.endedWith e .stopped).referenced = false ∧
    (a.endedWith e .stopped).ref = a.ref.afterRun := by
  have hr : (a.endedWith e .stopped).ref = if e.kind = .reference then a.stood.ref.afterRun else a.stood.ref := rfl
  have hf : (a.endedWith e .stopped).referenced = if e.kind = .reference ∧ (EndCode.stopped = .stopped ∨
    EndCode.stopped = .faulted) then false else a.stood.referenced := rfl
  rw [hr, hf, if_pos hk, if_pos ⟨hk, Or.inl rfl⟩]
  exact ⟨rfl, by rw [stood_eq]⟩

/-! ### The faults of a run, by what sets them off -/

/-- An input, a pulse or the end of a pause ends the run by a fault; `d` is the axis struck. -/
def State.failsRun (s : State) (c : Instr) (ax : AxisIx) (a b : Axis) (e : Entry) (here : Word) (code detail : Nat) : Prop :=
  ∃ t d, exec c s = .next t ∧ s.RunFaulted ax d e code detail a.setup.limitReaction t ∧ d.commanded = here ∧
    d.feedback = a.feedback ∧
    (a.ref.phase = .seekBack → d.moving = true ∧ d.ref.phase = .seekBack ∧
      ∀ u : Axis, u.reacts d a.setup.limitReaction → u.reacts b a.setup.limitReaction) ∧
    (a.ref.phase ≠ .seekBack → d.moving = false ∨ d.ref.phase.creeps = true)

theorem stopRates_reference (hk : e.kind = .reference) (st : AxisSetup) :
    (stopRates st (some e)).form = .linear ∧ (stopRates st (some e)).floor = st.floor := by
  have ho : orderRates st e = defaultRates st := if_neg (by rw [hk]; decide)
  have hr : stopRates st (some e) = { defaultRates st with dec := st.stopDecel } :=
    congrArg (fun r : Rates => { r with dec := st.stopDecel }) ho
  rw [hr]
  exact ⟨rfl, rfl⟩

/-- What O40 says of such a fault. -/
theorem failsRun_spec {c : Instr} {here : Word} (h : s.failsRun c ax a b e here code detail) (hm : s.memoryWf = true)
    (hg : s.agenda = []) (hs : e.status = .active) (hk : e.kind = .reference) (h4 : e.cell < 480) (hfly : e.fly = .none) :
    ∃ t, exec c s = .next t ∧ s.reports t ax code detail e.cell ∧ (t.axis ax).referenced = false ∧
      (t.axis ax).ref.phase = .none ∧ (t.axis ax).commanded = here ∧ (t.axis ax).feedback = a.feedback ∧
      (a.ref.phase = .seekBack → (t.axis ax).reacts b a.setup.limitReaction) ∧
      (a.ref.phase ≠ .seekBack → (t.axis ax).state = .faulted ∧ (t.axis ax).stopCause = .fault ∧
        (t.axis ax).list = [] ∧ (t.axis ax).moving = false ∧ (t.axis ax).driveEnable = false) ∧
      t.endReads e.cell (bytes4 6 code 0 0) 0 here a.feedback (BitVec.ofNat 32 e.elapsed) ∧
      t.chain = s.chain ++ [e.cell] ∧ (∀ x, ¬ mayWrite s e.cell x → t.readByte x = s.readByte x) ∧
      s.otherAxes t ax ∧ t = { s with
        mem := t.mem, chain := t.chain, causes := t.causes, faults := t.faults, axes := t.axes } := by
  obtain ⟨t, d, hx, hrun, rfl, hfb, hseek, hother⟩ := h
  obtain ⟨g1, g2, g3, g4, g5, ⟨c, hc⟩, g6, g7, g8, g9, g10⟩ := hrun.spec hm hg hs hk h4 hfly
  rw [hfb] at g5 g6
  refine ⟨t, hx, g1, g2, g3, g4, g5, fun hp => ?_, fun hp => hrun.atOnce hm hg hs hk h4 hfly (hother hp), g6, g7, g8, g9, g10⟩
  obtain ⟨h1, h2, h3⟩ := hseek hp
  obtain ⟨hlin, hfloor⟩ := stopRates_reference hk d.setup
  rw [hc]
  exact h3 _ (struck_reacts (e := e) h1 hlin hfloor (by rw [h2]; rfl))

/-- The exemption of the search limit does not hold in SEEK_BACK, in CLEAR, and in CREEP on the switch (R103, R146). -/
theorem limitExempt_of_run (hl : b.list = [e]) (h : b.ref.phase = .seekBack ∨ b.ref.phase = .clear ∨
    (b.ref.phase = .creep ∧ e.params.p4 = 0)) : b.limitExempt = false := by
  unfold Axis.limitExempt
  rcases h with h | h | ⟨h, h0⟩
  · rw [h]
  · rw [h]
  · rw [h, hl]
    simp [Entry.searchesLimit, h0]

/-- A change of an input that ends the run (R102, R138 to R141). -/
theorem failsRun_input {c : Instr} (hi : inputCommand c = some (ax, f)) (hq : s.quiet = true) (hw : s.watches = [])
    (hf : s.faultEntry (.axis ax) = none) (ha : a = s.axis ax) (hne : f a.inputs ≠ a.inputs)
    (hb : b = { a with inputs := f a.inputs }) (hr : a.state = .running) (hl : a.list = [e]) (hk : e.kind = .reference)
    (hs : e.status = .active) (hm : a.moving = true) (hal : b.alarmActive = false) (hrd : b.readyActive = true)
    (hfo : a.setup.followLimit = 0)
    (h : (a.ref.phase = .seekBack ∧ (a.ref.rampStop = true ∨ b.referenceActive = true ∨ a.ref.switchSeen = false) ∧
            b.limitActive a.prof.dir = true ∧ a.seen.limit = false ∧ code = 208 ∧ detail = 34) ∨
          (a.ref.phase = .clear ∧ b.searchActive e = true ∧ b.limitActive a.prof.dir = true ∧ a.seen.limit = false ∧
            code = 201 ∧ detail = if a.prof.dir = .plus then 1 else 2) ∨
          (a.ref.phase = .creep ∧ e.params.p4 = 0 ∧ b.searchActive e = false ∧ b.limitActive a.prof.dir = true ∧
            a.seen.limit = false ∧ code = 201 ∧ detail = if a.prof.dir = .plus then 1 else 2) ∨
          (a.ref.phase = .creep ∧ b.searchActive e = true ∧ e.params.p5.extractLsb' 16 16 = 1 ∧
            b.indexActive = true ∧ code = 208 ∧ detail = 83)) :
    s.failsRun c ax a b e a.commanded code detail := by
  have hbs : b.state = .running := by rw [hb]; exact hr
  have hbl : b.list = [e] := by rw [hb]; exact hl
  have hbm : b.moving = true := by rw [hb]; exact hm
  have hbf : b.setup = a.setup := by rw [hb]
  have hbr : b.ref = a.ref := by rw [hb]
  have hbd : b.prof.dir = a.prof.dir := by rw [hb]
  have hbc : b.commanded = a.commanded := by rw [hb]
  have hbfb : b.feedback = a.feedback := by rw [hb]
  have hbn : b.seen = a.seen := by rw [hb]
  have hbx : b = { s.axis ax with inputs := f (s.axis ax).inputs } := by rw [hb, ha]
  have hfo' : b.setup.followLimit = 0 := by rw [hbf]; exact hfo
  have hlimit (hlim : b.limitActive a.prof.dir = true) (hnew : a.seen.limit = false) (hx : b.limitExempt = false)
      (hcf : b.condFault .limit = (code, detail, a.setup.limitReaction))
      (href : ∃ w, (s.setAxis ax b).refInputOf ax e = s.setAxis ax (b.seesSwitch w)) : ∃ t w, exec c s = .next t ∧
        s.RunFaulted ax (b.seesSwitch w) e code detail a.setup.limitReaction t := by
    obtain ⟨w, href⟩ := href
    rw [← hbf] at hcf ⊢
    obtain ⟨t, hx, hrun⟩ := input_limit (w := w) hi hq hw hf (by rw [← ha]; exact hne) hbx hbs hbl hk hs hbm hal hrd hfo'
      (by rw [hbd]; exact hlim) (by rw [hbn]; exact hnew) hx href hcf
    exact ⟨t, w, hx, hrun⟩
  have hdetail : b.prof.dir.limitDetail = if a.prof.dir = .plus then 1 else 2 := by
    rw [hbd]
    cases a.prof.dir <;> rfl
  rcases h with ⟨hp, hsw, hlim, hnew, rfl, rfl⟩ | ⟨hp, hsa, hlim, hnew, rfl, rfl⟩ |
    ⟨hp, h0, hsa, hlim, hnew, rfl, rfl⟩ | ⟨hp, hsa, hix, hia, rfl, rfl⟩
  · obtain ⟨t, w, hx, hrun⟩ := hlimit hlim hnew (limitExempt_of_run hbl (Or.inl (by rw [hbr]; exact hp)))
      (by rw [← hbf]; exact if_pos (by rw [hbr]; exact hp))
      (refInputOf_waits (Or.inl ⟨by rw [hbr]; exact hp, by rw [hbr]; exact hsw⟩))
    exact ⟨t, _, hx, hrun, hbc, hbfb, fun _ => ⟨hbm, (congrArg RefCtl.phase hbr).trans hp, fun _ h => h⟩,
      fun h => absurd hp h⟩
  · obtain ⟨t, w, hx, hrun⟩ := hlimit hlim hnew (limitExempt_of_run hbl (Or.inr (Or.inl (by rw [hbr]; exact hp))))
      (by rw [← hdetail, ← hbf]; exact if_neg (by rw [hbr, hp]; decide))
      (refInputOf_waits (Or.inr (Or.inl ⟨by rw [hbr]; exact hp, hsa⟩)))
    exact ⟨t, _, hx, hrun, hbc, hbfb, fun h => absurd (hp.symm.trans h) (by decide), fun _ => Or.inr (by
      rw [show (b.seesSwitch w).ref.phase = .clear from (congrArg RefCtl.phase hbr).trans hp]; rfl)⟩
  · obtain ⟨t, w, hx, hrun⟩ := hlimit hlim hnew
      (limitExempt_of_run hbl (Or.inr (Or.inr ⟨by rw [hbr]; exact hp, h0⟩)))
      (by rw [← hdetail, ← hbf]; exact if_neg (by rw [hbr, hp]; decide))
      (refInputOf_waits (Or.inr (Or.inr ⟨by rw [hbr]; exact hp, hsa⟩)))
    exact ⟨t, _, hx, hrun, hbc, hbfb, fun h => absurd (hp.symm.trans h) (by decide), fun _ => Or.inr (by
      rw [show (b.seesSwitch w).ref.phase = .creep from (congrArg RefCtl.phase hbr).trans hp]; rfl)⟩
  · have huse : e.params.indexUse ≠ 0 := by
      unfold Params.indexUse
      rw [hix]
      decide
    obtain ⟨t, hx, hrun⟩ := input_index hi hq hw hf (by rw [← ha]; exact hne) hbx hbs hbl hk hs hal hfo'
      (by rw [hbr]; exact hp) hsa huse hia
    rw [hbf] at hrun
    exact ⟨t, _, hx, hrun, hbc, hbfb, fun h => absurd (hp.symm.trans h) (by decide), fun _ => Or.inr rfl⟩

/-- The end of a pause that ends the run (R140, R143, R145). -/
theorem failsRun_pause (hq : s.quiet = true) (hw : s.watches = []) (hf : s.faultEntry (.axis ax) = none)
    (ha : a = s.axis ax) (hr : a.state = .running) (hl : a.list = [e]) (hs : e.status = .active)
    (hal : a.alarmActive = false) (hfo : a.setup.followLimit = 0) (hm : a.moving = false) (hp : a.ref.phase = .pause)
    (ht : a.ref.pauseTimer = some 0)
    (h : (a.ref.next = .creep ∧ a.searchActive e = true ∧ code = 208 ∧ detail = 68) ∨
      (a.ref.next = .offset ∧ (e.params.p7.extractLsb' 0 24).toInt ≠ 0 ∧
        (a.commanded.toInt + (e.params.p7.extractLsb' 0 24).toInt < -2147483648 ∨
          2147483647 < a.commanded.toInt + (e.params.p7.extractLsb' 0 24).toInt) ∧ code = 208 ∧ detail = 117)) :
    s.failsRun (.pauseExpiry ax r) ax a a e a.commanded code detail := by
  have hne : a.ref.phase ≠ .seekBack := by rw [hp]; decide
  rcases h with ⟨hn, hsa, rfl, rfl⟩ | ⟨hn, h0, hout, rfl, rfl⟩
  · obtain ⟨t, hx, hrun⟩ := pause_fails (r := r) (ph := .creep) (reason := 4) hq hw hf ha hr hl hs hal hfo hm hp ht
      (by rw [hn]; exact beginCreep_fails hsa)
    exact ⟨t, _, hx, hrun, rfl, rfl, fun h => absurd h hne, fun _ => Or.inl hm⟩
  · obtain ⟨t, hx, hrun⟩ := pause_fails (r := r) (ph := .offset) (reason := 5) hq hw hf ha hr hl hs hal hfo hm hp ht
      (by rw [hn]; exact beginOffset_fails h0 hout)
    exact ⟨t, _, hx, hrun, rfl, rfl, fun h => absurd h hne, fun _ => Or.inl hm⟩

/-- Settles O40: the faults that end a run, the stop request, the last pulse of its ramp. -/
theorem referenceRunsEndEarly : Obligations.ReferenceRunsEndEarly := by
  unfold Obligations.ReferenceRunsEndEarly
  refine ⟨?_, fun s ax p e a hm hone hw ha hr hl hk hs hfly h4 => ⟨fun h => ?_, fun hmv hp hcan ho => ?_⟩, ?_⟩
  · intro c s ax r e a b here code detail hm hone hq hw hf hunc ha hr hl hk hs hfly hsm h4 hal hfo h
    refine failsRun_spec ?_ hm (quiet_iff.1 hq).1 hs hk h4 hfly
    rcases h with ⟨f, hi, hne, hb, rfl, hmv, hab, hrb, h⟩ | ⟨rfl, rfl, hmv, hu, hp, hplan, hhere, hspan, rfl, rfl⟩ |
      ⟨rfl, rfl, rfl, hmv, hp, ht, h⟩
    · exact failsRun_input hi hq hw hf ha hne hb hr hl hk hs hmv hab hrb hfo h
    · obtain ⟨g1, g2, g3, t, hx, hrun⟩ := pulse_fails (r := r) hq hw hf ha hr hl hk hs hmv hu hp hplan
        (by rw [← hhere]; exact BitVec.le_toInt here) (by rw [← hhere]; exact Int.le_of_lt_add_one (BitVec.toInt_lt (x := here)))
        (by rw [← hhere]; exact hspan)
      refine ⟨t, _, hx, hrun, BitVec.eq_of_toInt_eq (g1.trans hhere.symm), g2, fun h => ?_, fun _ => Or.inr ?_⟩
      · rw [hp] at h
        cases h
      · rw [g3, hp]
        rfl
    · exact failsRun_pause hq hw hf ha hr hl hs hal hfo hmv hp ht h
  · subst ha
    obtain ⟨k1, k2⟩ := endedWith_reference (a := s.axis ax) hk
    refine ⟨_, stop_atOnce hw hr hl hk hs h (p.p1 != 0), ?_⟩
    have hends := endsAlone_endedWith (s := s) (ax := ax) (code := .stopped) hm h4 hs (fun _ => hfly)
      (rfl : (s.axis ax).feedback = _) rfl rfl ((s.axis ax).endedWith e .stopped).seen
    refine ⟨hends, ?_⟩
    rw [axis_setAxis_same, k1, k2]
    exact ⟨rfl, rfl, rfl, rfl⟩
  · subst ha
    obtain ⟨h1, h2⟩ := stopReference_ramps (y := s) (ax := ax) (c := .request) hk hmv hp hcan ho
    rw [setAxis_axis] at h1
    have hx := stopAxis_reference hr hl hk (p.p1 != 0)
    rw [h1, settle_setAxis_busy AxisState.noConfusion] at hx
    refine ⟨_, hx, ?_⟩
    rw [axis_setAxis_same]
    exact ⟨rfl, rfl, rfl, hl, rfl, h2, otherAxes_setAxis s ax _, rfl⟩
  · intro s ax r a e q here hm hone hq hw ha hmv hu hp hplan hqe hl hk hs hfly h4 hst hc hre hhere hlow hhigh
    have hpulse : s.Pulses ax a q a.pulsed := ⟨hq, hw, ha, hmv, hu, by rw [hst]; decide, hplan, by rw [← hhere]; exact hlow,
      by rw [← hhere]; exact hhigh, rfl⟩
    obtain ⟨c, hx⟩ := hpulse.exec_rampEnd (r := r) hqe hl hs hst hc (Or.inr hk)
    obtain ⟨k1, k2⟩ := endedWith_reference (a := a.pulsed) hk
    obtain ⟨h1, h2⟩ := hpulse.here
    rw [← hhere] at h1 h2
    rw [hre] at hx
    have hends := endsAlone_endedWith (s := s) (ax := ax) (code := .stopped) hm h4 hs (fun _ => hfly)
      (b := a.pulsed) (hpulse.feedback.trans (congrArg Axis.feedback ha)) rfl h1 c
    refine ⟨_, hx, hends, ?_⟩
    rw [axis_setAxis_same]
    refine ⟨k1, (congrArg RefCtl.phase k2).trans rfl, ?_⟩
    exact (congrArg BitVec.toInt (stood_commanded (a := a.pulsed))).trans h2

end Sys2Proof.Machine
end
